-- ==== Sys2Proof/Word.lean ====
section
/-! DEFINITION. The word types: one 8-bit datum and one 10-bit operation word (spec/00_scope.md R9, R11; spec/20_memory.md R52; spec/30_encoding.md R71). -/

namespace Sys2Proof

/-- Every raw sample, corrected sample, window entry, mask, state and answer is 8 bits wide (R9, R52).
Bit `c` is channel `c` and has weight 2^c (R11; D2; log 9: PRESUMED, the spec's general knowledge). -/
abbrev Byte := BitVec 8

/-- One operation word, format `OPW10`: exactly 10 bits, delivered whole (R71; D12). -/
abbrev OpWord := BitVec 10

/-- A channel: one bit position of the port, 0..7 (R11, R13). -/
abbrev Channel := Fin 8

end Sys2Proof
end

