-- ==== Sys2Proof/Config.lean ====
section
/-! DEFINITION. What is fixed for an instance: the construction parameters `N` and `POLARITY_MASK` (spec/00_scope.md R7, R8, R10), the causes for which construction is rejected (spec/60_exceptions.md R151), and the free values of a power-up (spec/70_reset_and_hazards.md R182). -/

namespace Sys2Proof

/-- The complete parameter list of an instance is `(N, POLARITY_MASK)` (R10). The window size is carried with
the proof of `1 ≤ N ∧ N ≤ 255`, so that no rejected instance can be written down (R7, R151).
`POLARITY_MASK` has no illegal value (R8, R151): bit `c` = 1 means channel `c` is pull-up (active low). -/
structure Config where
  n : Nat
  polarityMask : Byte
  n_pos : 1 ≤ n
  n_le : n ≤ 255
deriving DecidableEq, Repr

/-- The parameters `State.reset` is built with: `N` = 10, the spec's default (R7, D23), and
`POLARITY_MASK` = 0x00 (log 2: DESIGN CHOICE, unsafe; the spec gives the mask no default, R8).
No statement rests on either: statements about construction quantify over every `Config`. -/
def Config.realisationDefault : Config where
  n := 10
  polarityMask := 0x00
  n_pos := by decide
  n_le := by decide

/-- The block's only errors: causes for which construction yields no instance (R151; codes and names D7). -/
inductive ConfigError where
  /-- code 1, `N` = 0 -/
  | cfgNZero
  /-- code 2, `N` > 255 -/
  | cfgNRange
  /-- code 3, a channel index ≥ 8: it cannot occur, since every channel parameter is an 8-bit mask (C6) -/
  | cfgChannelRange
deriving DecidableEq, Repr

/-- FREE VALUE. What an 8-bit register holds after the `k`th power-up and before the first reset (R182, D26:
"Registers power up to unknown values"); the second argument numbers the register. No body: nothing can be
proved of it (log 7). -/
opaque Config.powerUpByte : Nat → Nat → Byte

/-- FREE VALUE. What `CURSOR` holds after the `k`th power-up, taken mod `N` (R182, D26; log 7, log 8). -/
opaque Config.powerUpCursor : Nat → Nat

end Sys2Proof
end

