-- ==== Sys2Proof/Syntax.lean ====
section
/-! DEFINITION. The operations of the block, its "instructions": one constructor per row of spec/opcode_table.json (spec/30_encoding.md R70, R73). -/

namespace Sys2Proof

/-- The source's four public functions (R70). Each takes one 8-bit operand, and every value of it is legal (R72). -/
inductive Instr where
  /-- `process rawSample`: ingest one raw port sample (spec/40_process.md R100). -/
  | process (rawSample : Byte)
  /-- `pressed channelMask`: channels that became pressed on the most recent `process` (spec/41_queries.md R131). -/
  | pressed (channelMask : Byte)
  /-- `released channelMask`: channels that became released on the most recent `process` (R132). -/
  | released (channelMask : Byte)
  /-- `debouncedStateGet channelMask`: the debounced level of the masked channels (R133). -/
  | debouncedStateGet (channelMask : Byte)
deriving DecidableEq, Repr

end Sys2Proof
end

