-- ==== Sys2Proof/WellFormed.lean ====
section
/-! DEFINITION. The checks of the spec on terms: an operation (all are legal, spec/30_encoding.md R72, R74), the immediate of a source line (R76) and the window size of a construction (spec/00_scope.md R7, spec/60_exceptions.md R151). -/

namespace Sys2Proof

/-- Every value 0x00..0xFF is a legal operand of every operation (R72), and the operand's type holds no other:
no operation of the block is ill-formed (R74). -/
def Instr.wellFormed : Instr → Bool
  | .process _ => true
  | .pressed _ => true
  | .released _ => true
  | .debouncedStateGet _ => true

/-- "An assembler refuses an immediate outside 0..255" (R76). -/
def legalImmediate (imm : Nat) : Bool :=
  decide (imm ≤ 255)

/-- "Legal values are integers 1 ≤ N ≤ 255" (R7). -/
def legalWindowSize (n : Nat) : Bool :=
  decide (1 ≤ n ∧ n ≤ 255)

end Sys2Proof
end

