-- ==== Sys2Proof/Decode.lean ====
section
/-! DEFINITION. Decoding and encoding of operation words (spec/30_encoding.md R71-R75). The decoder reads the two fields; the opcode table of R73 stands beside it as data, so that the two can be held against each other. Nothing is rejected, because the spec reserves no encoding (R74). -/

namespace Sys2Proof

/-- Which operation a word names: the mnemonics of R73. -/
inductive Opcode where
  | process
  | pressed
  | released
  | debouncedStateGet
deriving DecidableEq, Repr

/-- Field `op` = bits 9:8 (R71). -/
def opField (word : OpWord) : BitVec 2 :=
  word.extractLsb' 8 2

/-- Field `data` = bits 7:0, taken unchanged (R71, R72). -/
def dataField (word : OpWord) : Byte :=
  word.extractLsb' 0 8

/-- The opcode map's `op` column (R73). -/
def Opcode.bits : Opcode → BitVec 2
  | .process => 0b00#2
  | .pressed => 0b01#2
  | .released => 0b10#2
  | .debouncedStateGet => 0b11#2

/-- "An operation is selected by `op = word[9:8]` alone" (R73); all four values are assigned (R74). -/
def opcodeOf (op : BitVec 2) : Opcode :=
  match op.toFin with
  | 0 => .process
  | 1 => .pressed
  | 2 => .released
  | 3 => .debouncedStateGet

/-- The operation a mnemonic and its operand make (R70). -/
def Instr.ofOpcode (opcode : Opcode) (data : Byte) : Instr :=
  match opcode with
  | .process => .process data
  | .pressed => .pressed data
  | .released => .released data
  | .debouncedStateGet => .debouncedStateGet data

def Instr.opcode : Instr → Opcode
  | .process _ => .process
  | .pressed _ => .pressed
  | .released _ => .released
  | .debouncedStateGet _ => .debouncedStateGet

/-- The 8-bit operand: `rawSample` for `process`, `channelMask` for the queries (R71). -/
def Instr.operand : Instr → Byte
  | .process rawSample => rawSample
  | .pressed channelMask => channelMask
  | .released channelMask => channelMask
  | .debouncedStateGet channelMask => channelMask

/-- The decoder: total on the 1024 words, never faulting (R74). -/
def decode (word : OpWord) : Instr :=
  Instr.ofOpcode (opcodeOf (opField word)) (dataField word)

/-- The encoder: `word = (op, imm8)`, `op` in the more significant bits (R76, R11). -/
def encode (i : Instr) : OpWord :=
  i.opcode.bits ++ i.operand

/-- A row of the opcode map (R73): a word selects the row for which `word & mask == match`. -/
structure OpcodeRow where
  opcode : Opcode
  fixed : OpWord
  mask : OpWord
deriving DecidableEq, Repr

/-- The opcode map of R73, whose machine-readable copy is spec/opcode_table.json. -/
def opcodeRows : List OpcodeRow :=
  [⟨.process, 0x000, 0x300⟩, ⟨.pressed, 0x100, 0x300⟩, ⟨.released, 0x200, 0x300⟩,
    ⟨.debouncedStateGet, 0x300, 0x300⟩]

/-- Does the word select the row? (R73) -/
def OpcodeRow.selects (row : OpcodeRow) (word : OpWord) : Bool :=
  word &&& row.mask == row.fixed

/-- The operation word in a number of `nbits` bits: bit 0 of the number is bit 0 of the word. Bits above
`nbits` are 0, and the bits above bit 9 that rounding 10 bits to whole bytes adds are no part of the word
(R71; log 5: DESIGN CHOICE). -/
def tableWord (nbits w : Nat) : OpWord :=
  BitVec.ofNat 10 (w % 2 ^ nbits)

/-- What the decoder reads from a table row's bits; never `none`, since no word is reserved (R74). -/
def decodeTableWord (nbits w : Nat) : Option Instr :=
  some (decode (tableWord nbits w))

end Sys2Proof
end

