-- ==== Sys2Proof/Machine/State.lean ====
section
/-! DEFINITION. The state of one instance (spec/10_state.md R20-R32), the host's boundary to it, the reasons a step can stop, and the construction state (R29; spec/70_reset_and_hazards.md R180). -/

namespace Sys2Proof.Machine

open Sys2Proof

/-- The input pins of the clocked realisation at one rising edge of `clk` (spec/30_encoding.md R78). -/
structure PinInputs where
  /-- `rst`: synchronous reset, active high -/
  rst : Bool
  /-- `sample_valid`: perform one `process` at this edge -/
  sampleValid : Bool
  /-- `raw_sample`: the `rawSample` operand -/
  rawSample : Byte
  /-- `query_mask`: the `channelMask` operand the three query outputs share -/
  queryMask : Byte
deriving DecidableEq, Repr

/-- What the host, everything outside the block, can do to the instance. Events land between operations, never
inside one (spec/20_memory.md R55, R56). -/
inductive HostEvent where
  /-- one operation word, delivered whole (R71) -/
  | operation (word : OpWord)
  /-- one rising edge of `clk` of the clocked realisation, with the input pins' levels (R79, R81; log 10) -/
  | clockEdge (pins : PinInputs)
  /-- power is lost and comes back: all state is lost and a reset is needed before any operation
  (R32, R163, R182; log 6, log 7) -/
  | powerCycle
deriving DecidableEq, Repr

/-- Why a step can stop with a fault. No operation of a constructed instance faults (R150). -/
inductive Fault where
  /-- Raised by the delivery of an operation (or of an edge that would perform one) to an instance that has not
  been reset since its last power-up: "No operation may be issued in that interval" (R182, D26). Safe: the
  model stops where the spec leaves the state unspecified (log 6). -/
  | beforeReset
deriving DecidableEq, Repr

/-- Why a step can be refused. -/
inductive Refusal where
  /-- Raised by an arm of `exec` for an instruction that has no meaning yet; no arm does. Safe. -/
  | notModelled (mnemonic : String)
deriving DecidableEq, Repr

/-- One instance: its two construction constants, exactly the four pieces of state of R20, whether it has been
constructed since the last power-up, and (the model's own fields) the host's side of the boundary. -/
structure State where
  /-- `N` and `POLARITY_MASK`: fixed at construction, written by no operation and no reset (R25, R181; log 1) -/
  cfg : Config
  /-- `WINDOW[0..N-1]`: the circular buffer of corrected samples (R21) -/
  window : Vector Byte cfg.n
  /-- `CURSOR`: the index of the next slot to overwrite, in 0..N-1 (R22, R26 INV-CUR; log 8) -/
  cursor : Fin cfg.n
  /-- `DEBOUNCED_STATE`: bit `c` = 1 means channel `c` is considered pressed (R23) -/
  debounced : Byte
  /-- `CHANGED`: the channels whose debounced bit flipped on the most recent `process` (R24) -/
  changed : Byte
  /-- has the state come from construction or reset since the last power-up? (R182; log 6) -/
  constructed : Bool
  /-- MODEL's own: the answer of the most recent operation, `none` when it answered nothing (R12, R100; log 4) -/
  result : Option Byte
  /-- MODEL's own: the host's events not yet performed, oldest first (R27, R56; log 3) -/
  pending : List HostEvent
  /-- MODEL's own: the counter that the free power-up contents are drawn with (R182; log 7) -/
  powerCycles : Nat
deriving DecidableEq, Repr

/-- The construction state of an instance with the given parameters (R29, R180): every window entry 0x00, the
cursor 0, the debounced state and the changed mask 0x00. -/
def State.construction (cfg : Config) : State where
  cfg := cfg
  window := Vector.replicate cfg.n 0x00
  cursor := ⟨0, cfg.n_pos⟩
  debounced := 0x00
  changed := 0x00
  constructed := true
  result := none
  pending := []
  powerCycles := 0

/-- The machine right after reset: the construction state (R29, R181) of the realisation's default parameters
(log 2: the mask 0x00 is a DESIGN CHOICE). The host has sent nothing yet (log 3). -/
def State.reset : State :=
  State.construction Config.realisationDefault

end Sys2Proof.Machine
end

