-- ==== Sys2Proof/Machine/Flags.lean ====
section
/-! DEFINITION. The edge_detector: the computation of the block's only flag register `CHANGED` (spec/40_process.md R108) and its split into presses and releases (spec/41_queries.md R131, R132). -/

namespace Sys2Proof.Machine

open Sys2Proof

/-- Step 4 of `process`: `new XOR DEBOUNCED_STATE`, against the state before step 5 (R108). -/
def edgeMask (new old : Byte) : Byte :=
  new ^^^ old

/-- The press edges: bits newly changed and currently active (R131). -/
def pressEdges (s : State) : Byte :=
  s.changed &&& s.debounced

/-- The release edges: bits newly changed and currently inactive (R132). -/
def releaseEdges (s : State) : Byte :=
  s.changed &&& ~~~s.debounced

end Sys2Proof.Machine
end

