-- ==== Sys2Proof/Machine/Operands.lean ====
section
/-! DEFINITION. The operand forms: `rawSample` through the polarity_corrector (spec/40_process.md R101, R102) and `channelMask` selecting channels of a query's value (spec/41_queries.md R130, R134). -/

namespace Sys2Proof.Machine

open Sys2Proof

/-- polarity_corrector, step 1 of `process`: `corrected = rawSample XOR POLARITY_MASK` (R101). -/
def correctSample (cfg : Config) (rawSample : Byte) : Byte :=
  rawSample ^^^ cfg.polarityMask

/-- A query's value restricted to the channels of the mask: every bit outside `channelMask` is 0 (R130). -/
def selectChannels (channelMask value : Byte) : Byte :=
  channelMask &&& value

end Sys2Proof.Machine
end

