-- ==== Sys2Proof/Machine/Ops.lean ====
section
/-! DEFINITION. The named operations over the state: the sample_window_circular_buffer (spec/40_process.md R103, R104), the state_comparator (R106), the commits of steps 4 and 5 (R108, R109), the answer of an operation (spec/00_scope.md R12), reset (spec/70_reset_and_hazards.md R181) and loss of power (R182).

Taking an exception and returning from one: the block has neither, because no operation raises one and there is no program counter to divert (spec/60_exceptions.md R150, R155, R156). -/

namespace Sys2Proof.Machine

open Sys2Proof

/-- Step 2a: store the corrected sample into `WINDOW[CURSOR]`; the other entries keep their value (R103). -/
def storeSample (s : State) (corrected : Byte) : State :=
  { s with window := s.window.set s.cursor.val corrected s.cursor.isLt }

/-- `(CURSOR + 1) mod N` (R104). -/
def nextCursor (s : State) : Fin s.cfg.n :=
  ⟨(s.cursor.val + 1) % s.cfg.n, Nat.mod_lt _ s.cfg.n_pos⟩

/-- Step 2b: `CURSOR <- (CURSOR + 1) mod N` (R104). -/
def advanceCursor (s : State) : State :=
  { s with cursor := nextCursor s }

/-- `CURSOR` as the 8-bit register the spec gives it (R22, D8). -/
def cursorRegister (s : State) : Byte :=
  BitVec.ofNat 8 s.cursor.val

/-- The bitwise AND of entries: `0xFF & w[0] & ... & w[N-1]` (R11). -/
def andAll (entries : List Byte) : Byte :=
  entries.foldl (· &&& ·) 0xFF

/-- state_comparator, step 3: the AND of all `N` window entries (R106). -/
def stateComparator (s : State) : Byte :=
  andAll s.window.toList

/-- Step 4: `CHANGED <- new XOR DEBOUNCED_STATE` (R108). -/
def markEdges (s : State) (new : Byte) : State :=
  { s with changed := edgeMask new s.debounced }

/-- Step 5: `DEBOUNCED_STATE <- new` (R109). -/
def commitState (s : State) (new : Byte) : State :=
  { s with debounced := new }

/-- `result <- v`: return the value to the host as the answer of a query (R12; log 4). -/
def answer (s : State) (value : Byte) : State :=
  { s with result := some value }

/-- The operation answers nothing: `-> void` (R100; log 4). -/
def answerNothing (s : State) : State :=
  { s with result := none }

/-- Construction of an instance already elaborated, the edge with `rst` = 1: the construction state of R29;
`N` and `POLARITY_MASK` are unchanged (R181), and the host's events stay the host's. -/
def reconstruct (s : State) : State :=
  { State.construction s.cfg with pending := s.pending, powerCycles := s.powerCycles }

/-- Power is lost and comes back: every register holds a free value, and the instance waits for its first reset
(R32, R163, R182; log 6, log 7). -/
def losePower (s : State) : State :=
  { s with
    window := Vector.ofFn fun i => Config.powerUpByte s.powerCycles (i.val + 2)
    cursor := ⟨Config.powerUpCursor s.powerCycles % s.cfg.n, Nat.mod_lt _ s.cfg.n_pos⟩
    debounced := Config.powerUpByte s.powerCycles 0
    changed := Config.powerUpByte s.powerCycles 1
    constructed := false
    result := none
    powerCycles := s.powerCycles + 1 }

/-- "No operation is admitted on an unreset state": stuck before the first reset (R182, D26; log 6). -/
def whenConstructed (s : State) (perform : Host.Outcome State Fault Refusal) :
    Host.Outcome State Fault Refusal :=
  if s.constructed then perform else .fault .beforeReset

end Sys2Proof.Machine
end

