-- ==== Sys2Proof/Machine/Process.lean ====
section
/-! DEFINITION. `process`, the block's only state-changing operation (spec/40_process.md R100-R110). -/

namespace Sys2Proof.Machine

open Sys2Proof

/-- The state `process rawSample` leaves (R100): the five steps as one transition, each line reading what the lines
before it wrote. Step 3 sees step 2's write; step 4 sees the debounced state from before step 5 (R110). -/
def processed (rawSample : Byte) (s : State) : State :=
  let corrected := correctSample s.cfg rawSample
  let ingested := advanceCursor (storeSample s corrected)
  let new := stateComparator ingested
  answerNothing (commitState (markEdges ingested new) new)

/-- `process rawSample`: always completes, with no answer (R100, R150). -/
def execProcess (rawSample : Byte) (s : State) : Host.Outcome State Fault Refusal :=
  .next (processed rawSample s)

end Sys2Proof.Machine
end

