-- ==== Sys2Proof/Machine/Queries.lean ====
section
/-! DEFINITION. The three queries (spec/41_queries.md R130-R133): each answers from the committed state and writes nothing of the block. -/

namespace Sys2Proof.Machine

open Sys2Proof

/-- `pressed channelMask`: `result <- channelMask & CHANGED & DEBOUNCED_STATE` (R131). -/
def execPressed (channelMask : Byte) (s : State) : Host.Outcome State Fault Refusal :=
  .next (answer s (selectChannels channelMask (pressEdges s)))

/-- `released channelMask`: `result <- channelMask & CHANGED & ~DEBOUNCED_STATE` (R132). -/
def execReleased (channelMask : Byte) (s : State) : Host.Outcome State Fault Refusal :=
  .next (answer s (selectChannels channelMask (releaseEdges s)))

/-- `debouncedStateGet channelMask`: `result <- channelMask & DEBOUNCED_STATE` (R133). -/
def execDebouncedStateGet (channelMask : Byte) (s : State) : Host.Outcome State Fault Refusal :=
  .next (answer s (selectChannels channelMask s.debounced))

end Sys2Proof.Machine
end

