-- ==== Sys2Proof/Machine/Dispatch.lean ====
section
/-! DEFINITION. One arm per constructor of `Instr` (spec/30_encoding.md R73). -/

namespace Sys2Proof.Machine

open Sys2Proof

def exec (i : Instr) (s : State) : Host.Outcome State Fault Refusal :=
  match i with
  | .process rawSample => Sys2Proof.Machine.execProcess rawSample s
  | .pressed channelMask => Sys2Proof.Machine.execPressed channelMask s
  | .released channelMask => Sys2Proof.Machine.execReleased channelMask s
  | .debouncedStateGet channelMask => Sys2Proof.Machine.execDebouncedStateGet channelMask s

end Sys2Proof.Machine
end

