-- ==== Sys2Proof/Machine/Pins.lean ====
section
/-! DEFINITION. The clocked realisation: what one rising edge does and what the query outputs show (spec/30_encoding.md R78-R81; spec/60_exceptions.md R154). -/

namespace Sys2Proof.Machine

open Sys2Proof

/-- The output pins (R78). -/
structure PinOutputs where
  /-- `pressed_o` -/
  pressedO : Byte
  /-- `released_o` -/
  releasedO : Byte
  /-- `state_o` -/
  stateO : Byte
deriving DecidableEq, Repr

/-- The outputs: combinational in the registered state and `query_mask`, with no state of their own (R80). They
show the state committed at the last edge, also while `sample_valid` = 1 (R80, R154). -/
def pinOutputs (queryMask : Byte) (s : State) : PinOutputs where
  pressedO := queryMask &&& s.changed &&& s.debounced
  releasedO := queryMask &&& s.changed &&& ~~~s.debounced
  stateO := queryMask &&& s.debounced

/-- One rising edge of `clk` (R79): `rst` wins over `sample_valid` (R154, R181), else one whole `process`, else the
state is unchanged. A `process` before the first reset is not admitted (R182; log 6). -/
def clockEdge (pins : PinInputs) (s : State) : Host.Outcome State Fault Refusal :=
  if pins.rst then .next (reconstruct s)
  else if pins.sampleValid then whenConstructed s (execProcess pins.rawSample s)
  else .next s

end Sys2Proof.Machine
end

