-- ==== Sys2Proof/Machine/Events.lean ====
section
/-! DEFINITION. What one event of the host does to the instance: an operation, a clock edge, or loss of power (spec/20_memory.md R55, R56; spec/30_encoding.md R81; spec/70_reset_and_hazards.md R182). -/

namespace Sys2Proof.Machine

open Sys2Proof

/-- The transition of one event. An operation word is decoded and performed whole, on a constructed instance (R71,
R55, R182). -/
def performEvent (event : HostEvent) (s : State) : Host.Outcome State Fault Refusal :=
  match event with
  | .operation word => whenConstructed s (exec (decode word) s)
  | .clockEdge pins => clockEdge pins s
  | .powerCycle => .next (losePower s)

/-- The state in which the front event has been taken and `rest` is still to come. -/
def takeEvent (s : State) (rest : List HostEvent) : State :=
  { s with pending := rest }

/-- The host puts an operation word where the block takes its next one from: the front of the events (log 3). -/
def deliverWord (s : State) (word : OpWord) : State :=
  { s with pending := .operation word :: s.pending }

end Sys2Proof.Machine
end

