-- ==== Sys2Proof/Machine/Step.lean ====
section
/-! DEFINITION. One step: the block fetches nothing and has no program counter (spec/10_state.md R27); it performs the host's next event. -/

namespace Sys2Proof.Machine

open Sys2Proof

/-- Perform the oldest pending event of the host (R27, R56). With none, "the state holds unchanged" (R163). -/
def step (s : State) : Host.Outcome State Fault Refusal :=
  match s.pending with
  | [] => .next s
  | event :: rest => performEvent event (takeEvent s rest)

/-- `s` with the operation word of a table row as the host's next event. The block selects no program itself: the
events come from outside, and this stands for the host sending that operation next (log 3, log 5). -/
def State.withFetchWord (s : State) (nbits w : Nat) : State :=
  deliverWord s (tableWord nbits w)

end Sys2Proof.Machine
end

