-- ==== Sys2Proof/Machine/Assembler.lean ====
section
/-! DEFINITION. The assembly syntax `<mnemonic> <imm8>`, one operation per line, and the listing's form of a line and of an answer (spec/30_encoding.md R76, R77; D14). A line is a list of characters without its line end (log 12). -/

namespace Sys2Proof.Machine

open Sys2Proof

/-- "the source's function names, spelled case-sensitively" (R76) -/
def spelling : Opcode → List Char
  | .process => ['p', 'r', 'o', 'c', 'e', 's', 's']
  | .pressed => ['p', 'r', 'e', 's', 's', 'e', 'd']
  | .released => ['r', 'e', 'l', 'e', 'a', 's', 'e', 'd']
  | .debouncedStateGet =>
    ['d', 'e', 'b', 'o', 'u', 'n', 'c', 'e', 'd', 'S', 't', 'a', 't', 'e', 'G', 'e', 't']

/-- The mnemonic list; any other name is refused, and there are no pseudo-instructions (R76, R77). -/
def opcodeNamed (name : List Char) : Option Opcode :=
  [Opcode.process, .pressed, .released, .debouncedStateGet].find? fun opcode => spelling opcode == name

/-- The value of one digit, hexadecimal digits in either case (log 12). -/
def digitValue (c : Char) : Option Nat :=
  if 48 ≤ c.toNat ∧ c.toNat ≤ 57 then some (c.toNat - 48)
  else if 65 ≤ c.toNat ∧ c.toNat ≤ 70 then some (c.toNat - 55)
  else if 97 ≤ c.toNat ∧ c.toNat ≤ 102 then some (c.toNat - 87)
  else none

/-- Read digits of a base onto the value of those already read. -/
def readDigits (base : Nat) : Nat → List Char → Option Nat
  | value, [] => some value
  | value, c :: cs =>
    match digitValue c with
    | some d => if d < base then readDigits base (value * base + d) cs else none
    | none => none

/-- A number is at least one digit. -/
def readNumber (base : Nat) (digits : List Char) : Option Nat :=
  if digits.isEmpty then none else readDigits base 0 digits

/-- "an unsigned integer ... written in hexadecimal `0x..`, binary `0b..` or decimal" (R76) -/
def readImmediate : List Char → Option Nat
  | '0' :: 'x' :: digits => readNumber 16 digits
  | '0' :: 'b' :: digits => readNumber 2 digits
  | digits => readNumber 10 digits

/-- The word of an operation whose mnemonic and immediate have been read: the immediate must be in 0..255 (R76). -/
def assembleOperation (opcode : Opcode) (imm : Nat) : Option OpWord :=
  if legalImmediate imm then some (encode (Instr.ofOpcode opcode (BitVec.ofNat 8 imm))) else none

/-- One source line: mnemonic, one space, immediate; anything else is refused (R76, log 12). -/
def assemble (line : List Char) : Option OpWord :=
  match opcodeNamed (line.takeWhile (· != ' ')), line.dropWhile (· != ' ') with
  | some opcode, ' ' :: digits =>
    match readImmediate digits with
    | some imm => assembleOperation opcode imm
    | none => none
  | _, _ => none

/-- One upper-case hexadecimal digit, as the spec's listings write it. -/
def hexDigit (n : Nat) : Char :=
  if n < 10 then Char.ofNat (48 + n) else Char.ofNat (55 + n)

/-- `0xNN` -/
def hexByte (b : Byte) : List Char :=
  ['0', 'x', hexDigit (b.toNat / 16), hexDigit (b.toNat % 16)]

/-- An operation as a source line. -/
def sourceLine (i : Instr) : List Char :=
  spelling i.opcode ++ ' ' :: hexByte i.operand

/-- The answer of a query as a listing writes it after the line: `; -> 0xNN` (R76). -/
def answerComment (value : Byte) : List Char :=
  [';', ' ', '-', '>', ' '] ++ hexByte value

end Sys2Proof.Machine
end

