-- ==== Sys2Proof/Machine/Construct.lean ====
section
/-! DEFINITION. Construction of an instance and its rejection (spec/70_reset_and_hazards.md R180; spec/60_exceptions.md R151, R152). -/

namespace Sys2Proof.Machine

open Sys2Proof

/-- The cause codes (R151; D7). -/
def configErrorCode : ConfigError → Nat
  | .cfgNZero => 1
  | .cfgNRange => 2
  | .cfgChannelRange => 3

/-- The single cause reported when `N` fails the check: `CFG_N_ZERO` if `N` = 0, and `CFG_N_RANGE` otherwise (R152). -/
def windowSizeCause (n : Nat) : ConfigError :=
  if n = 0 then .cfgNZero else .cfgNRange

/-- Construction with `(N, POLARITY_MASK)`: the construction state of R29, or `raise ConfigError(cause)` and no
instance (R12, R151, R180). -/
def construct (n : Nat) (polarityMask : Byte) : Except ConfigError State :=
  if legal : legalWindowSize n = true then
    have range : 1 ≤ n ∧ n ≤ 255 := of_decide_eq_true legal
    .ok (State.construction ⟨n, polarityMask, range.1, range.2⟩)
  else
    .error (windowSizeCause n)

end Sys2Proof.Machine
end

