-- ==== Sys2Proof/Machine/CounterForm.lean ====
section
/-! DEFINITION. The counter form of the block: a realisation that keeps, per channel, how many of the most recent corrected samples were active in a row, instead of the window (spec/40_process.md R116; spec/70_reset_and_hazards.md R191; D25, log 13). The normative state stays the window; this file states the other form and how a window state is seen as one. -/

namespace Sys2Proof.Machine

open Sys2Proof

/-- A realisation with counters: `run[c]`, capped at `N`, in place of `WINDOW` and `CURSOR` (R116). -/
structure Counters where
  cfg : Config
  run : Vector Nat 8
  debounced : Byte
  changed : Byte
  result : Option Byte
deriving DecidableEq, Repr

/-- `run[c]` after one more sample: one longer, capped at `N`, or none after an inactive sample (R116). -/
def nextRun (cfg : Config) (active : Bool) (run : Nat) : Nat :=
  if active then min cfg.n (run + 1) else 0

/-- `process` of the counter form: `DEBOUNCED_STATE[c] = (run[c] == N)` (R116). -/
def Counters.process (k : Counters) (rawSample : Byte) : Counters :=
  let corrected := rawSample ^^^ k.cfg.polarityMask
  let run := Vector.ofFn fun c : Channel => nextRun k.cfg (corrected[c.val]) k.run[c.val]
  let new := BitVec.ofFnLE fun c : Channel => run[c.val] == k.cfg.n
  { k with run := run, changed := new ^^^ k.debounced, debounced := new, result := none }

/-- The four operations of the counter form: the queries answer as R131-R133 say. -/
def Counters.perform (i : Instr) (k : Counters) : Counters :=
  match i with
  | .process rawSample => k.process rawSample
  | .pressed channelMask => { k with result := some (channelMask &&& k.changed &&& k.debounced) }
  | .released channelMask => { k with result := some (channelMask &&& k.changed &&& ~~~k.debounced) }
  | .debouncedStateGet channelMask => { k with result := some (channelMask &&& k.debounced) }

/-- The counter form constructed with the same parameters: no run has begun (R29, R116). -/
def Counters.construction (cfg : Config) : Counters where
  cfg := cfg
  run := Vector.replicate 8 0
  debounced := 0x00
  changed := 0x00
  result := none

/-- The window's entries, oldest first: from `CURSOR` on, then from the start (R21, R105). -/
def State.oldestFirst (s : State) : List Byte :=
  s.window.toList.drop s.cursor.val ++ s.window.toList.take s.cursor.val

/-- A window state seen as a counter state: `run[c]` is how many of the newest entries have bit `c` set, in a row. -/
def State.counters (s : State) : Counters where
  cfg := s.cfg
  run := Vector.ofFn fun c : Channel => (s.oldestFirst.reverse.takeWhile (·[c.val])).length
  debounced := s.debounced
  changed := s.changed
  result := s.result

end Sys2Proof.Machine
end

