-- ==== Sys2Proof/Safety.lean ====
section
/-! DEFINITION. The terms claims are stated in: the block's state as plain data, one entry of the window, the invariant of a run (spec/10_state.md R26), lanes (spec/40_process.md R113), and the kinds of events of the host. -/

namespace Sys2Proof.Machine

open Sys2Proof

/-- What R20 gives the block, its construction constants, and whether it has been constructed: everything of
`State` but the host's side of the boundary. -/
structure Registers where
  cfg : Config
  window : List Byte
  cursor : Nat
  debounced : Byte
  changed : Byte
  constructed : Bool
deriving DecidableEq, Repr

def State.registers (s : State) : Registers where
  cfg := s.cfg
  window := s.window.toList
  cursor := s.cursor.val
  debounced := s.debounced
  changed := s.changed
  constructed := s.constructed

/-- `WINDOW[i]`, `none` outside 0..N-1. -/
def State.entry (s : State) (i : Nat) : Option Byte :=
  s.window.toList[i]?

/-- The index of the entry written by the most recent `process`: the one before `CURSOR` in the ring. -/
def State.newest (s : State) : Nat :=
  (s.cursor.val + (s.cfg.n - 1)) % s.cfg.n

/-- A release edge has one shape: if channel `c` changed and is inactive, the newest entry is the only one in
which it is inactive. This is what INV-CHG and INV-AND of R26 leave in the state itself (R107, R112). -/
abbrev State.ReleaseShape (s : State) : Prop :=
  ∀ c : Channel, s.changed[c.val] = true → s.debounced[c.val] = false →
    ∀ i : Fin s.cfg.n, (s.window[i.val])[c.val] = decide (i.val ≠ s.newest)

/-- The invariant of every run: once constructed, INV-AND of R26 and the shape of release edges. INV-CUR is in
the type of `cursor`. Before the first reset the state is unspecified, and nothing is claimed (R182). -/
abbrev State.Inv (s : State) : Prop :=
  s.constructed = true → s.debounced = andAll s.window.toList ∧ s.ReleaseShape

/-- Channel `c`'s slice of the state (R113). -/
structure Lane where
  window : List Bool
  debounced : Bool
  changed : Bool
deriving DecidableEq, Repr

def State.lane (s : State) (c : Channel) : Lane where
  window := s.window.toList.map (·[c.val])
  debounced := s.debounced[c.val]
  changed := s.changed[c.val]

/-- The three queries, as against `process` (R130). -/
def isQuery : Instr → Bool
  | .process _ => false
  | .pressed _ => true
  | .released _ => true
  | .debouncedStateGet _ => true

/-- The event of one operation: its word (R71). -/
def operationEvent (i : Instr) : HostEvent :=
  .operation (encode i)

/-- The event of one sample. -/
def sampleEvent (rawSample : Byte) : HostEvent :=
  operationEvent (.process rawSample)

/-- Does the event ask for an operation? An operation word does, and so does an edge with `rst` = 0 and
`sample_valid` = 1, which is the operation `process` (R81). -/
def asksForOperation : HostEvent → Bool
  | .operation _ => true
  | .clockEdge pins => !pins.rst && pins.sampleValid
  | .powerCycle => false

def isPowerCycle : HostEvent → Bool
  | .operation _ => false
  | .clockEdge _ => false
  | .powerCycle => true

/-- An edge with `rst` = 1, which is construction (R81). -/
def isReset : HostEvent → Bool
  | .operation _ => false
  | .clockEdge pins => pins.rst
  | .powerCycle => false

/-- `s` with the host's events yet to come. -/
def State.facing (s : State) (events : List HostEvent) : State :=
  { s with pending := events }

/-- The outcome of performing the events one after another, one step each (R56). -/
def performAll (s : State) (events : List HostEvent) : Host.Outcome State Fault Refusal :=
  core.run events.length (s.facing events)

end Sys2Proof.Machine
end

