-- ==== Sys2Proof/Certificates/Slice0/Obligations.lean ====
section
/-! DEFINITION. The statements for the provers. Each docstring names the rules of spec/ it formalises. Where a rule, or a part of it, carries the spec's own mark of a decision or a derivation, the statement is 'derived' and the docstring says so. Every statement quantifies over the construction parameters `N` and `POLARITY_MASK`, through the state or a `Config`; none rests on `State.reset`'s choice of them (log 2). -/

open Sys2Proof Sys2Proof.Machine

/-! ## Encoding -/

/-- The words of the spec's decoding vectors decode to the operations they stand for (30_encoding.md R71, R73,
95_test_vectors.md L2-A). The encoding is the spec's decision D12. -/
def Obligations.ListedWordsDecode : Prop :=
  decode 0b0000000000 = .process 0x00 ∧ decode 0b0011111111 = .process 0xFF ∧
    decode 0b0100000000 = .pressed 0x00 ∧ decode 0b0110100101 = .pressed 0xA5 ∧
    decode 0b1001011010 = .released 0x5A ∧ decode 0b1011111111 = .released 0xFF ∧
    decode 0b1100000000 = .debouncedStateGet 0x00 ∧ decode 0b1111111111 = .debouncedStateGet 0xFF

/-- R72: the operand is `word[7:0]` as an unsigned number, passed on unchanged, and every value of it is a legal
operand of every operation. -/
def Obligations.DataFieldIsTheOperandUnchanged : Prop :=
  (∀ word : OpWord, (decode word).operand.toNat = word.toNat % 256 ∧ (decode word).wellFormed = true) ∧
    ∀ (opcode : Opcode) (v : Byte), ∃ word : OpWord,
      decode word = Instr.ofOpcode opcode v ∧ (decode word).operand = v

/-- R73 (decision D12): exactly one row of the opcode map matches each of the 1024 words, and the decoder reads the
operation of that row. -/
def Obligations.ExactlyOneRowMatchesAndDecodingFollowsIt : Prop :=
  ∀ word : OpWord, ∃ row ∈ opcodeRows, word &&& row.mask = row.fixed ∧
    decode word = Instr.ofOpcode row.opcode (dataField word) ∧
    ∀ other ∈ opcodeRows, word &&& other.mask = other.fixed → other = row

/-- R71, R73, R74, R76 (decisions D12, D13, D14): decoding and encoding are inverse, on every operation with every
operand and on every one of the 1024 words; so is the decoding of a table row's bits, however many whole bytes
the word is padded to (the padding is log 5). -/
def Obligations.EncodingRoundTrips : Prop :=
  (∀ (i : Instr) (nbits : Nat), 10 ≤ nbits → decodeTableWord nbits (encode i).toNat = some i) ∧
    (∀ i : Instr, i.wellFormed = true → decode (encode i) = i) ∧
    ∀ word : OpWord, encode (decode word) = word

/-! ## process -/

/-- R100 and R110: the five steps as one transition from every state, each step reading what the ones before it
wrote; with the operation's word (decision D12) and the worked example of R100 (the spec's derivation). That the
answer is cleared is the model's convention (log 4). -/
def Obligations.ProcessPerformsTheFiveSteps : Prop :=
  (∀ (s : State) (raw : Byte),
    let window := s.window.set s.cursor.val (raw ^^^ s.cfg.polarityMask) s.cursor.isLt
    let new := andAll window.toList
    exec (.process raw) s = .next { s with
      window := window
      cursor := ⟨(s.cursor.val + 1) % s.cfg.n, Nat.mod_lt _ s.cfg.n_pos⟩
      changed := new ^^^ s.debounced
      debounced := new
      result := none }) ∧
  (∀ raw : Byte, encode (.process raw) = 0x000 ||| raw.setWidth 10) ∧
  ∀ cfg : Config, cfg.n = 3 → cfg.polarityMask = 0x01 → ∃ t : State,
    exec (.process 0x00) (State.construction cfg) = .next t ∧ t.window.toList = [0x01, 0x00, 0x00] ∧
    t.cursor.val = 1 ∧ t.changed = 0x00 ∧ t.debounced = 0x00

/-- R101: step 1 flips exactly the pull-up channels; the corrected sample is what is written into the window, and the
raw sample and the mask have no other effect than through it: they are stored nowhere. -/
def Obligations.ProcessCorrectsPolarity : Prop :=
  (∀ (s : State) (raw : Byte), ∃ (t : State) (corrected : Byte), exec (.process raw) s = .next t ∧
    corrected = raw ^^^ s.cfg.polarityMask ∧
    (∀ c : Channel,
      (s.cfg.polarityMask[c.val] = false → corrected[c.val] = raw[c.val]) ∧
      (s.cfg.polarityMask[c.val] = true → corrected[c.val] = !raw[c.val])) ∧
    t.window.toList = s.window.toList.set s.cursor.val corrected) ∧
  ∀ (s₁ s₂ : State) (raw₁ raw₂ : Byte), s₁.cfg.n = s₂.cfg.n → s₁.window.toList = s₂.window.toList →
    s₁.cursor.val = s₂.cursor.val → s₁.debounced = s₂.debounced →
    raw₁ ^^^ s₁.cfg.polarityMask = raw₂ ^^^ s₂.cfg.polarityMask → ∃ t₁ t₂ : State,
      exec (.process raw₁) s₁ = .next t₁ ∧ exec (.process raw₂) s₂ = .next t₂ ∧
      t₁.window.toList = t₂.window.toList ∧ t₁.cursor.val = t₂.cursor.val ∧
      t₁.debounced = t₂.debounced ∧ t₁.changed = t₂.changed

/-- R103: the corrected sample replaces the entry at the cursor as the operation starts, which is the oldest one;
that value is lost and the other N-1 entries are unchanged. -/
def Obligations.ProcessOverwritesTheOldestEntry : Prop :=
  ∀ (s : State) (raw : Byte), ∃ t : State, exec (.process raw) s = .next t ∧
    t.entry s.cursor.val = some (raw ^^^ s.cfg.polarityMask) ∧
    (∀ i : Nat, i ≠ s.cursor.val → t.entry i = s.entry i) ∧
    s.oldestFirst.head? = s.entry s.cursor.val ∧
    t.oldestFirst = s.oldestFirst.tail ++ [raw ^^^ s.cfg.polarityMask]

/-- R104, with R22: the cursor moves on by one mod N; the sum fits the 8-bit register with no carry out (the spec's
derivation, from its decision D8 on the register's width); with N = 1 the cursor stays 0. -/
def Obligations.CursorAdvancesAroundTheRing : Prop :=
  ∀ (s : State) (raw : Byte), ∃ t : State, exec (.process raw) s = .next t ∧
    t.cursor.val = (s.cursor.val + 1) % s.cfg.n ∧
    (t.cursor.val = if s.cursor.val = s.cfg.n - 1 then 0 else s.cursor.val + 1) ∧
    (cursorRegister s).toNat = s.cursor.val ∧ s.cursor.val ≤ 254 ∧
    (cursorRegister s + 1).toNat = s.cursor.val + 1 ∧
    (s.cfg.n = 1 → t.cursor.val = 0)

/-- R106 and R109: the new debounced state is the AND of all N entries of the window after the write, per channel
and as a whole; with N = 1 it is the corrected sample; and INV-AND and INV-CHG hold again, from every state. -/
def Obligations.ProcessComparesTheWholeWindow : Prop :=
  ∀ (s : State) (raw : Byte), ∃ t : State, exec (.process raw) s = .next t ∧
    t.entry s.cursor.val = some (raw ^^^ s.cfg.polarityMask) ∧
    (∀ c : Channel, t.debounced[c.val] = true ↔
      ∀ i : Nat, i < s.cfg.n → ∃ e : Byte, t.entry i = some e ∧ e[c.val] = true) ∧
    (s.cfg.n = 1 → t.debounced = raw ^^^ s.cfg.polarityMask) ∧
    t.debounced = andAll t.window.toList ∧
    t.changed = t.debounced ^^^ s.debounced

/-- R108: `CHANGED` is the XOR of the new state with the one before; a set bit is a press where the new bit is 1 and
a release where it is 0; `process` overwrites it whatever it held, no query clears it, and `pressed` and
`released` read the split out. -/
def Obligations.ProcessMarksTheEdges : Prop :=
  ∀ (s : State) (raw : Byte), ∃ t : State, exec (.process raw) s = .next t ∧
    t.changed = t.debounced ^^^ s.debounced ∧
    (∀ c : Channel,
      (t.changed[c.val] = true ∧ t.debounced[c.val] = true ↔
        s.debounced[c.val] = false ∧ t.debounced[c.val] = true) ∧
      (t.changed[c.val] = true ∧ t.debounced[c.val] = false ↔
        s.debounced[c.val] = true ∧ t.debounced[c.val] = false) ∧
      (t.changed[c.val] = false ↔ t.debounced[c.val] = s.debounced[c.val])) ∧
    (∀ held : Byte, exec (.process raw) { s with changed := held } = .next t) ∧
    (∀ q : Instr, isQuery q = true → ∃ u : State, exec q t = .next u ∧ u.changed = t.changed) ∧
    ∀ m : Byte, ∃ p r : State, exec (.pressed m) t = .next p ∧ exec (.released m) t = .next r ∧
      p.result = some (m &&& t.debounced &&& ~~~s.debounced) ∧
      r.result = some (m &&& ~~~t.debounced &&& s.debounced)

/-- The frame of `process` (10_state.md R31, 40_process.md R100): it completes in every state with no answer, and
leaves the construction constants, every window entry but the one at the cursor, and the host's side unchanged.
That the answer is cleared is the model's convention (log 4). -/
def Obligations.ProcessLeavesTheRestUnchanged : Prop :=
  ∀ (s : State) (raw : Byte), ∃ t : State, exec (.process raw) s = .next t ∧
    t.cfg = s.cfg ∧ (∀ i : Nat, i ≠ s.cursor.val → t.entry i = s.entry i) ∧
    t.constructed = s.constructed ∧ t.pending = s.pending ∧ t.powerCycles = s.powerCycles ∧
    t.result = none

/-- The corner cases of R115 and R102 (the spec's derivations; decision D22): N = 1; the wrap at N-1; the raw idle
pattern; the raw all-pressed pattern; the global-flag variants. -/
def Obligations.ProcessCornerCases : Prop :=
  ∀ s : State,
    (∀ raw : Byte, s.cfg.n = 1 → ∃ t : State, exec (.process raw) s = .next t ∧ t.cursor.val = 0 ∧
      t.debounced = raw ^^^ s.cfg.polarityMask) ∧
    (∀ raw : Byte, s.cursor.val = s.cfg.n - 1 → ∃ t : State, exec (.process raw) s = .next t ∧
      t.entry (s.cfg.n - 1) = some (raw ^^^ s.cfg.polarityMask) ∧ t.cursor.val = 0) ∧
    (∃ t : State, exec (.process s.cfg.polarityMask) s = .next t ∧ t.entry s.cursor.val = some 0x00 ∧
      t.debounced = 0x00 ∧ t.changed = s.debounced) ∧
    (∃ t : State, exec (.process (~~~s.cfg.polarityMask)) s = .next t ∧ t.entry s.cursor.val = some 0xFF ∧
      t.debounced = andAll (s.window.toList.eraseIdx s.cursor.val)) ∧
    (∀ raw : Byte, s.cfg.polarityMask = 0x00 → ∃ t : State, exec (.process raw) s = .next t ∧
      t.entry s.cursor.val = some raw) ∧
    (∀ raw : Byte, s.cfg.polarityMask = 0xFF → ∃ t : State, exec (.process raw) s = .next t ∧
      t.entry s.cursor.val = some (~~~raw))

/-! ## Queries -/

/-- R131, R132, R133: each query completes in every state with the answer of its rule and changes nothing else; and
its word (the encoding is decision D12). -/
def Obligations.QueriesAnswerFromTheCommittedState : Prop :=
  ∀ (s : State) (m : Byte),
    (exec (.pressed m) s = .next { s with result := some (m &&& s.changed &&& s.debounced) } ∧
      encode (.pressed m) = 0x100 ||| m.setWidth 10) ∧
    (exec (.released m) s = .next { s with result := some (m &&& s.changed &&& ~~~s.debounced) } ∧
      encode (.released m) = 0x200 ||| m.setWidth 10) ∧
    (exec (.debouncedStateGet m) s = .next { s with result := some (m &&& s.debounced) } ∧
      encode (.debouncedStateGet m) = 0x300 ||| m.setWidth 10)

/-- R130: every query completes, reads the committed state only (equal `DEBOUNCED_STATE` gives equal answers, for
`pressed` and `released` with equal `CHANGED` too), writes nothing, answers the same again, answers 0 outside its
mask, and sees the state after every `process` ordered before it. -/
def Obligations.QueriesWriteNothing : Prop :=
  ∀ q : Instr, isQuery q = true →
    (∀ s : State, ∃ (t : State) (b : Byte), exec q s = .next t ∧ t = { s with result := some b } ∧
      t.registers = s.registers ∧ b &&& ~~~q.operand = 0 ∧ exec q t = .next t) ∧
    (∀ s₁ s₂ : State, s₁.debounced = s₂.debounced →
      (q.opcode = .pressed ∨ q.opcode = .released → s₁.changed = s₂.changed) → ∃ t₁ t₂ : State, exec q s₁ = .next t₁ ∧ exec q s₂ = .next t₂ ∧ t₁.result = t₂.result) ∧
    ∀ (s : State) (samples : List Byte), s.constructed = true → ∃ u t : State,
      performAll s (samples.map sampleEvent) = .next u ∧
      performAll s (samples.map sampleEvent ++ [operationEvent q]) = .next t ∧ exec q u = .next t

/-- R54: what each operation reads and writes. `process` reads the mask, the cursor, the entries (those that its own
write leaves) and `DEBOUNCED_STATE`, and writes one entry, the cursor, `CHANGED` and `DEBOUNCED_STATE`; the queries
read `DEBOUNCED_STATE`, and `pressed` and `released` also `CHANGED`; they write nothing and are idempotent. -/
def Obligations.OperationsReadAndWriteOnlyTheirState : Prop :=
  (∀ (s₁ s₂ : State) (raw : Byte), s₁.cfg = s₂.cfg → s₁.cursor.val = s₂.cursor.val →
    (∀ i : Nat, i ≠ s₁.cursor.val → s₁.entry i = s₂.entry i) → s₁.debounced = s₂.debounced →
    ∃ t₁ t₂ : State, exec (.process raw) s₁ = .next t₁ ∧ exec (.process raw) s₂ = .next t₂ ∧
      t₁.window.toList = t₂.window.toList ∧ t₁.cursor.val = t₂.cursor.val ∧
      t₁.debounced = t₂.debounced ∧ t₁.changed = t₂.changed) ∧
  (∀ (s : State) (raw : Byte), ∃ t : State, exec (.process raw) s = .next t ∧ t.cfg = s.cfg ∧
    t.constructed = s.constructed ∧ t.entry s.cursor.val = some (raw ^^^ s.cfg.polarityMask) ∧
    ∀ j : Nat, j ≠ s.cursor.val → t.entry j = s.entry j) ∧
  (∀ (s₁ s₂ : State) (m : Byte), s₁.debounced = s₂.debounced → ∃ t₁ t₂ : State,
    exec (.debouncedStateGet m) s₁ = .next t₁ ∧ exec (.debouncedStateGet m) s₂ = .next t₂ ∧
      t₁.result = t₂.result ∧
      (s₁.changed = s₂.changed → ∃ p₁ p₂ r₁ r₂ : State,
        exec (.pressed m) s₁ = .next p₁ ∧ exec (.pressed m) s₂ = .next p₂ ∧ p₁.result = p₂.result ∧
        exec (.released m) s₁ = .next r₁ ∧ exec (.released m) s₂ = .next r₂ ∧ r₁.result = r₂.result)) ∧
  ∀ (s : State) (q : Instr), isQuery q = true → ∃ t : State, exec q s = .next t ∧
    t.registers = s.registers ∧ exec q t = .next t

/-- R134 (the spec's derivation): a query never answers for a channel outside its mask, and its answer is that of
the full mask restricted to the mask. -/
def Obligations.MaskIsolation : Prop :=
  ∀ (s : State) (opcode : Opcode) (m : Byte), isQuery (Instr.ofOpcode opcode m) = true →
    ∃ (t u : State) (b whole : Byte), exec (Instr.ofOpcode opcode m) s = .next t ∧ t.result = some b ∧
      exec (Instr.ofOpcode opcode 0xFF) s = .next u ∧ u.result = some whole ∧
      b &&& ~~~m = 0x00 ∧ b = whole &&& m

/-- R135 (the spec's derivation): no channel is pressed and released at once; together they are the masked changes;
a pressed channel reads active and a released one inactive; and the lane table. -/
def Obligations.QueriesAreRelated : Prop :=
  ∀ (s : State) (m : Byte), ∃ (p r g : State) (pressed released level : Byte),
    exec (.pressed m) s = .next p ∧ p.result = some pressed ∧
    exec (.released m) s = .next r ∧ r.result = some released ∧
    exec (.debouncedStateGet m) s = .next g ∧ g.result = some level ∧
    pressed &&& released = 0x00 ∧ pressed ||| released = m &&& s.changed ∧
    pressed &&& ~~~level = 0x00 ∧ released &&& level = 0x00 ∧
    ∀ c : Channel, (pressed[c.val], released[c.val], level[c.val]) =
      match m[c.val], s.changed[c.val], s.debounced[c.val] with
      | false, _, _ => (false, false, false)
      | true, false, false => (false, false, false)
      | true, false, true => (false, false, true)
      | true, true, false => (false, true, false)
      | true, true, true => (true, false, true)

/-- R137 (in part the spec's derivation, over its reset values D4-D6): before any `process`, and after fewer than N
of them whatever samples they carry, every query answers 0x00 for every mask. -/
def Obligations.IdleStability : Prop :=
  ∀ (cfg : Config) (samples : List Byte) (q : Instr), samples.length < cfg.n → isQuery q = true →
    ∃ t : State, performAll (State.construction cfg) (samples.map sampleEvent ++ [operationEvent q]) = .next t ∧
      t.result = some 0x00

/-- R136 and the hazard R187 (the spec's derivations): the edge answers stand over any number of queries; a `process`
that flips no bit ends them, while the level is kept. -/
def Obligations.EdgesStandUntilTheNextSample : Prop :=
  (∀ (s : State) (queries : List Instr) (m : Byte), s.constructed = true → (∀ q ∈ queries, isQuery q = true) →
    ∃ p r : State,
      performAll s (queries.map operationEvent ++ [operationEvent (.pressed m)]) = .next p ∧
      p.result = some (m &&& s.changed &&& s.debounced) ∧
      performAll s (queries.map operationEvent ++ [operationEvent (.released m)]) = .next r ∧
      r.result = some (m &&& s.changed &&& ~~~s.debounced)) ∧
  ∀ (s : State) (raw m : Byte), ∃ t : State, exec (.process raw) s = .next t ∧
    (t.debounced = s.debounced → ∃ p r g : State,
      exec (.pressed m) t = .next p ∧ p.result = some 0x00 ∧
      exec (.released m) t = .next r ∧ r.result = some 0x00 ∧
      exec (.debouncedStateGet m) t = .next g ∧ g.result = some (m &&& s.debounced))

/-! ## Construction, reset, power and the clocked realisation -/

/-- R29, R180 (decisions D4, D5, D6, D9): the construction state of every instance. `State.reset` is the one with
the spec's default N = 10 (R7); its mask 0x00 is the model's choice (log 2), its empty list of events log 3. -/
def Obligations.ConstructionState : Prop :=
  (∀ cfg : Config, (State.construction cfg).registers =
    { cfg := cfg, window := List.replicate cfg.n 0x00, cursor := 0, debounced := 0x00, changed := 0x00,
      constructed := true } ∧
    correctSample cfg cfg.polarityMask = 0x00) ∧
  State.reset = State.construction State.reset.cfg ∧ State.reset.cfg.n = 10 ∧ State.reset.pending = []

/-- R151, R152 (codes and names are decision D7): construction with `(N, POLARITY_MASK)` succeeds exactly for
1 ≤ N ≤ 255, with any mask; otherwise there is no instance and the single cause is `CFG_N_ZERO` (1) for N = 0 and
`CFG_N_RANGE` (2) above 255; `CFG_CHANNEL_RANGE` (3) never occurs. -/
def Obligations.ConstructionChecksTheWindowSize : Prop :=
  ∀ (n : Nat) (mask : Byte),
    (1 ≤ n → n ≤ 255 → ∃ s : State, construct n mask = .ok s ∧ s.cfg.n = n ∧ s.cfg.polarityMask = mask ∧
      s = State.construction s.cfg) ∧
    (n = 0 → construct n mask = .error .cfgNZero) ∧
    (255 < n → construct n mask = .error .cfgNRange) ∧
    construct n mask ≠ .error .cfgChannelRange ∧
    (configErrorCode .cfgNZero, configErrorCode .cfgNRange, configErrorCode .cfgChannelRange) = (1, 2, 3)

/-- R79, R81, R154, R181 (decision D9): an edge with `rst` = 1 leaves the construction state of the same parameters,
from every state and whatever `sample_valid` is; no `process` happens at it, and while `rst` is held the state
stays so. That the answer is cleared and the later events stay pending are the model's conventions (log 4, log 3). -/
def Obligations.ResetWinsOverSample : Prop :=
  ∀ (s : State) (pins : PinInputs) (rest : List HostEvent), pins.rst = true →
    s.pending = .clockEdge pins :: rest → ∃ t : State, step s = .next t ∧
      t.registers = (State.construction s.cfg).registers ∧ t.pending = rest ∧ t.result = none ∧
      ∀ again : PinInputs, again.rst = true → ∃ u : State, performAll t [.clockEdge again] = .next u ∧
        u.registers = t.registers

/-- R78-R81 (decision D10): over any number of edges without reset, the clocked realisation reaches the registers
that the operations of the edges with `sample_valid` = 1 reach, and its three outputs show the answers of the
three queries there. -/
def Obligations.ClockedRealisationMatchesTheOperations : Prop :=
  ∀ (s : State) (edges : List PinInputs), s.constructed = true → (∀ pins ∈ edges, pins.rst = false) →
    ∃ t u : State, performAll s (edges.map .clockEdge) = .next t ∧
      performAll s ((edges.filter (·.sampleValid)).map fun pins => sampleEvent pins.rawSample) = .next u ∧
      t.registers = u.registers ∧
      ∀ m : Byte, ∃ p r g : State,
        exec (.pressed m) u = .next p ∧ p.result = some (pinOutputs m t).pressedO ∧
        exec (.released m) u = .next r ∧ r.result = some (pinOutputs m t).releasedO ∧
        exec (.debouncedStateGet m) u = .next g ∧ g.result = some (pinOutputs m t).stateO

/-- R182, R163, with R81 (decisions D26, D10; log 6): a power cycle leaves the instance unconstructed; from there, as
long as no reset edge comes, no run reaches a constructed state; the first operation stops it, be it a word or an
edge with `sample_valid` = 1; and until one comes the run goes on. That the power cycle clears the answer is log 4,
and that it keeps the constants and the later events is log 7. -/
def Obligations.NoOperationBeforeReset : Prop :=
  (∀ (s : State) (rest : List HostEvent), s.pending = .powerCycle :: rest → ∃ t : State, step s = .next t ∧
    t.constructed = false ∧ t.cfg = s.cfg ∧ t.pending = rest ∧ t.result = none) ∧
  ∀ (s : State) (events : List HostEvent), s.constructed = false → (∀ e ∈ events, isReset e = false) →
    (∀ t : State, performAll s events = .next t → t.constructed = false) ∧
    ((∃ e ∈ events, asksForOperation e = true) → performAll s events = .fault .beforeReset) ∧
    ((∀ e ∈ events, asksForOperation e = false) → ∃ t : State, performAll s events = .next t)

/-- R183 (the spec's derivation): N samples of the raw idle pattern lead from any state with no channel active to
the construction state, but for the cursor, which is where it was. -/
def Obligations.ResetActsLikeIdleSamples : Prop :=
  ∀ s : State, s.constructed = true → s.debounced = 0x00 →
    ∃ t : State, performAll s ((List.replicate s.cfg.n s.cfg.polarityMask).map sampleEvent) = .next t ∧
      t.registers = { (State.construction s.cfg).registers with cursor := s.cursor.val }

/-! ## Steps and invariants -/

/-- A step performs the host's next operation: the word is decoded and `exec` runs it, with the later events still to
come (R27, R56, R71; log 3). `withFetchWord` puts a word there. -/
def Obligations.StepPerformsTheDecodedOperation : Prop :=
  (∀ (s : State) (word : OpWord) (rest : List HostEvent), s.constructed = true →
    s.pending = .operation word :: rest → step s = exec (decode word) { s with pending := rest }) ∧
  ∀ (s : State) (i : Instr), s.constructed = true → step (s.withFetchWord 10 (encode i).toNat) = exec i s

/-- R163 and the last case of R79: with no event, and at an edge with `rst` = 0 and `sample_valid` = 0, nothing
changes (the realisation is decision D10). -/
def Obligations.WithoutASampleTheStateHolds : Prop :=
  (∀ s : State, s.pending = [] → step s = .next s) ∧
  ∀ (s : State) (pins : PinInputs) (rest : List HostEvent), pins.rst = false → pins.sampleValid = false →
    s.pending = .clockEdge pins :: rest → step s = .next { s with pending := rest }

/-- R150: no operation faults, in any state; the decoder never faults, on any of the 10-bit words; and a constructed instance never stops,
whatever operations and edges the host sends it (a power cycle ends its being constructed, R182). -/
def Obligations.OperationsNeverStop : Prop :=
  (∀ (i : Instr) (s : State), ∃ t : State, exec i s = .next t) ∧
  (∀ word : OpWord, decodeTableWord 10 word.toNat = some (decode word)) ∧
  ∀ (s : State) (events : List HostEvent), s.constructed = true → (∀ e ∈ events, isPowerCycle e = false) →
    ∃ t : State, performAll s events = .next t ∧ t.constructed = true

/-- R26 (its INV-CHG in the form the state itself shows, `State.ReleaseShape`): every step keeps the invariant, from
every state that meets it. -/
def Obligations.EveryStepKeepsTheInvariant : Prop :=
  ∀ s t : State, s.Inv → step s = .next t → t.Inv

/-- R26, R29 (decisions D4, D6): the construction state of every instance meets the invariant; so does
`State.reset`. -/
def Obligations.ConstructionMeetsTheInvariant : Prop :=
  (∀ cfg : Config, (State.construction cfg).Inv) ∧ State.reset.Inv

/-! ## Runs of samples -/

/-- R105 (the spec's derivation): after k samples from construction the ring, oldest first, holds the last N of N
reset entries 0x00 followed by the k corrected samples. -/
def Obligations.RingHoldsTheLastSamples : Prop :=
  ∀ (cfg : Config) (samples : List Byte), ∃ t : State,
    performAll (State.construction cfg) (samples.map sampleEvent) = .next t ∧
    t.oldestFirst = (List.replicate cfg.n 0x00 ++ samples.map (· ^^^ cfg.polarityMask)).drop samples.length ∧
    (cfg.n ≤ samples.length →
      t.entry t.cursor.val = ((samples.map (· ^^^ cfg.polarityMask)).drop (samples.length - cfg.n)).head?)

/-- R30 (the spec's derivation): from construction with any initial cursor, the debounced state is the AND of the
last N corrected samples once there are N, and 0x00 before; the order of entries does not matter; and the cursor
has moved once per sample. -/
def Obligations.DebouncedIsTheAndOfTheLastSamples : Prop :=
  (∀ (cfg : Config) (start : Fin cfg.n) (samples : List Byte), ∃ t : State,
    performAll { State.construction cfg with cursor := start } (samples.map sampleEvent) = .next t ∧
    (t.debounced = if cfg.n ≤ samples.length then
      andAll ((samples.map (· ^^^ cfg.polarityMask)).drop (samples.length - cfg.n)) else 0x00) ∧
    t.cursor.val = (start.val + samples.length) % cfg.n) ∧
  ∀ xs ys : List Byte, xs.Perm ys → andAll xs = andAll ys

/-- R107: the filter is asymmetric. A channel is active after N or more samples exactly when all N most recent
corrected samples agree it is active, from every state; a single inactive sample makes it inactive at once. -/
def Obligations.AsymmetricFilter : Prop :=
  ∀ s : State,
    (∀ samples : List Byte, s.constructed = true → s.cfg.n ≤ samples.length → ∃ t : State,
      performAll s (samples.map sampleEvent) = .next t ∧
      ∀ c : Channel, t.debounced[c.val] = true ↔
        ∀ v ∈ samples.drop (samples.length - s.cfg.n), (v ^^^ s.cfg.polarityMask)[c.val] = true) ∧
    ∀ raw : Byte, ∃ t : State, exec (.process raw) s = .next t ∧
      ∀ c : Channel, (raw ^^^ s.cfg.polarityMask)[c.val] = false → t.debounced[c.val] = false

/-- R111 (the spec's derivation): after an inactive sample of a channel and k active ones, the channel is active
exactly when k ≥ N; the Nth active sample is the press edge, and no later one is. The same from construction. -/
def Obligations.PressLatency : Prop :=
  (∀ (s : State) (c : Channel) (idle : Byte) (samples : List Byte), s.constructed = true →
    (idle ^^^ s.cfg.polarityMask)[c.val] = false →
    (∀ v ∈ samples, (v ^^^ s.cfg.polarityMask)[c.val] = true) → ∃ t : State,
      performAll s ((idle :: samples).map sampleEvent) = .next t ∧
      (t.debounced[c.val] = true ↔ s.cfg.n ≤ samples.length) ∧
      (samples.length = s.cfg.n → t.changed[c.val] = true) ∧
      (s.cfg.n < samples.length → t.changed[c.val] = false)) ∧
  ∀ (cfg : Config) (c : Channel) (samples : List Byte),
    (∀ v ∈ samples, (v ^^^ cfg.polarityMask)[c.val] = true) → ∃ t : State,
      performAll (State.construction cfg) (samples.map sampleEvent) = .next t ∧
      (t.debounced[c.val] = true ↔ cfg.n ≤ samples.length) ∧
      (samples.length = cfg.n → t.changed[c.val] = true)

/-- R112 (the spec's derivation; C7): an active channel is released by the very `process` that carries an inactive
sample of it, with a release edge, and stays inactive for the next N-1 samples, whatever they are. -/
def Obligations.ImmediateRelease : Prop :=
  ∀ (s : State) (c : Channel) (raw : Byte), s.debounced[c.val] = true →
    (raw ^^^ s.cfg.polarityMask)[c.val] = false →
    (∃ t : State, exec (.process raw) s = .next t ∧ t.debounced[c.val] = false ∧ t.changed[c.val] = true) ∧
    ∀ samples : List Byte, s.constructed = true → samples.length < s.cfg.n → ∃ t : State,
      performAll s ((raw :: samples).map sampleEvent) = .next t ∧ t.debounced[c.val] = false

/-- R115 (the spec's derivation): the same sample N times settles the debounced state at its corrected form, from
every state, and one repeat more leaves no edge. -/
def Obligations.RepeatedSampleSettles : Prop :=
  ∀ (s : State) (raw : Byte), s.constructed = true → ∃ t u : State,
    performAll s ((List.replicate s.cfg.n raw).map sampleEvent) = .next t ∧
    t.debounced = raw ^^^ s.cfg.polarityMask ∧
    exec (.process raw) t = .next u ∧ u.debounced = t.debounced ∧ u.changed = 0x00

/-- R116, R191 (the spec's derivation, decision D25; log 13): the counter form simulates the window, one operation
at a time, from every state and from construction; its answers are the same, and after a `process` a channel is
active exactly when its run is N. -/
def Obligations.CounterFormSimulatesTheWindow : Prop :=
  (∀ cfg : Config, (State.construction cfg).counters = Counters.construction cfg) ∧
  ∀ (i : Instr) (s : State), ∃ t : State, exec i s = .next t ∧ t.counters = s.counters.perform i ∧
    ∀ raw : Byte, i = .process raw → ∀ c : Channel,
      t.debounced[c.val] = (t.counters.run[c.val] == s.cfg.n)

/-! ## What does not reach what -/

/-- R113 (the spec's derivation): two instances of one window size and cursor that agree on a channel's mask bit and
slice still agree on that slice after any samples that agree on the channel, whatever the other channels hold; and
their answers agree on it. -/
def Obligations.ChannelsAreIndependent : Prop :=
  ∀ (c : Channel) (s₁ s₂ : State) (samples : List (Byte × Byte)), s₁.constructed = true → s₂.constructed = true →
    s₁.cfg.n = s₂.cfg.n → s₁.cursor.val = s₂.cursor.val →
    s₁.cfg.polarityMask[c.val] = s₂.cfg.polarityMask[c.val] → s₁.lane c = s₂.lane c →
    (∀ v ∈ samples, v.1[c.val] = v.2[c.val]) → ∃ t₁ t₂ : State,
      performAll s₁ (samples.map fun v => sampleEvent v.1) = .next t₁ ∧
      performAll s₂ (samples.map fun v => sampleEvent v.2) = .next t₂ ∧
      t₁.lane c = t₂.lane c ∧
      ∀ (opcode : Opcode) (m₁ m₂ : Byte), isQuery (Instr.ofOpcode opcode m₁) = true →
        m₁[c.val] = m₂[c.val] → ∃ (a₁ a₂ : State) (b₁ b₂ : Byte),
          exec (Instr.ofOpcode opcode m₁) t₁ = .next a₁ ∧ a₁.result = some b₁ ∧
          exec (Instr.ofOpcode opcode m₂) t₂ = .next a₂ ∧ a₂.result = some b₂ ∧ b₁[c.val] = b₂[c.val]

/-- R56, with R31: whatever queries the host mixes among the samples, the registers are those the samples alone
leave, and a query then answers the same. -/
def Obligations.QueriesDoNotDisturbTheSamples : Prop :=
  ∀ (s : State) (ops : List Instr), s.constructed = true → ∃ t u : State,
    performAll s (ops.map operationEvent) = .next t ∧
    performAll s ((ops.filter fun i => !isQuery i).map operationEvent) = .next u ∧
    t.registers = u.registers ∧
    ∀ q : Instr, isQuery q = true → ∃ a b : State, exec q t = .next a ∧ exec q u = .next b ∧
      a.result = b.result

/-- R28, R30: where the ring starts cannot be observed. Two instances with the same parameters, debounced state,
changed mask and entries in order of age, at different cursors, answer the same to every run of operations. -/
def Obligations.TheCursorIsHidden : Prop :=
  ∀ (s₁ s₂ : State) (ops : List Instr) (last : Instr), s₁.constructed = true → s₂.constructed = true →
    s₁.cfg = s₂.cfg → s₁.oldestFirst = s₂.oldestFirst → s₁.debounced = s₂.debounced →
    s₁.changed = s₂.changed → ∃ t₁ t₂ : State,
      performAll s₁ ((ops ++ [last]).map operationEvent) = .next t₁ ∧
      performAll s₂ ((ops ++ [last]).map operationEvent) = .next t₂ ∧
      t₁.result = t₂.result ∧ t₁.debounced = t₂.debounced ∧ t₁.changed = t₂.changed

/-! ## The assembler -/

/-- R76, R77 (decision D14; log 12): every operation's source line assembles to its word; a line of a listed mnemonic
and an immediate assembles to the word of its value when that is at most 255 and is refused above; a name that is
not listed is refused. What reads as an immediate, and that every other line is refused, is
AssemblerAcceptsOnlyTheSyntax. -/
def Obligations.AssemblerFollowsTheListing : Prop :=
  (∀ i : Instr, assemble (sourceLine i) = some (encode i)) ∧
  (∀ (opcode : Opcode) (digits : List Char) (imm : Nat), readImmediate digits = some imm →
    assemble (spelling opcode ++ ' ' :: digits) =
      if imm ≤ 255 then some (opcode.bits ++ BitVec.ofNat 8 imm) else none) ∧
  ∀ (name digits : List Char), (∀ c ∈ name, c ≠ ' ') → (∀ opcode : Opcode, name ≠ spelling opcode) →
    assemble (name ++ ' ' :: digits) = none

/-- R76 (decision D14): a line assembles exactly when it is a listed mnemonic, a space and an immediate of at most 255,
and then to `op` and the immediate; every other line is refused. An immediate is one or more digits after `0x` in
base 16, after `0b` in base 2, or alone in base 10, and its value is that of the digits in that base, the first
digit the most significant. One space, digits in either case and leading zeros are the model's choices (log 12). -/
def Obligations.AssemblerAcceptsOnlyTheSyntax : Prop :=
  (∀ (line : List Char) (word : OpWord), assemble line = some word ↔
    ∃ (opcode : Opcode) (digits : List Char) (imm : Nat), line = spelling opcode ++ ' ' :: digits ∧
      readImmediate digits = some imm ∧ imm ≤ 255 ∧ word = opcode.bits ++ BitVec.ofNat 8 imm) ∧
  ∀ (chars : List Char) (imm : Nat), readImmediate chars = some imm ↔
    ∃ (lead digits : List Char) (base : Nat) (values : List Nat),
      (lead, base) ∈ [(['0', 'x'], 16), (['0', 'b'], 2), ([], 10)] ∧ chars = lead ++ digits ∧
      values ≠ [] ∧ (∀ d ∈ values, d < base) ∧ digits.map Char.toLower = values.map Nat.digitChar ∧
      imm = Nat.ofDigits base values.reverse
end

