-- ==== Sys2Proof/Laws/State.lean ====
section
/-! SUPPORT. One lemma per field of State per named update, so that no later proof unfolds a record update. The two dependent fields are read as plain data: `window.toList` and `cursor.val`. -/

namespace Sys2Proof.Machine

open Sys2Proof

@[simp] theorem storeSample_cfg (s : State) (corrected : Byte) :
    (storeSample s corrected).cfg = s.cfg := rfl
@[simp] theorem storeSample_window (s : State) (corrected : Byte) :
    (storeSample s corrected).window.toList = s.window.toList.set s.cursor.val corrected := Vector.toList_set s.cursor.isLt
@[simp] theorem storeSample_cursor (s : State) (corrected : Byte) :
    (storeSample s corrected).cursor.val = s.cursor.val := rfl
@[simp] theorem storeSample_debounced (s : State) (corrected : Byte) :
    (storeSample s corrected).debounced = s.debounced := rfl
@[simp] theorem storeSample_changed (s : State) (corrected : Byte) :
    (storeSample s corrected).changed = s.changed := rfl
@[simp] theorem storeSample_constructed (s : State) (corrected : Byte) :
    (storeSample s corrected).constructed = s.constructed := rfl
@[simp] theorem storeSample_result (s : State) (corrected : Byte) :
    (storeSample s corrected).result = s.result := rfl
@[simp] theorem storeSample_pending (s : State) (corrected : Byte) :
    (storeSample s corrected).pending = s.pending := rfl
@[simp] theorem storeSample_powerCycles (s : State) (corrected : Byte) :
    (storeSample s corrected).powerCycles = s.powerCycles := rfl

@[simp] theorem advanceCursor_cfg (s : State) :
    (advanceCursor s).cfg = s.cfg := rfl
@[simp] theorem advanceCursor_window (s : State) :
    (advanceCursor s).window.toList = s.window.toList := rfl
@[simp] theorem advanceCursor_cursor (s : State) :
    (advanceCursor s).cursor.val = (s.cursor.val + 1) % s.cfg.n := rfl
@[simp] theorem advanceCursor_debounced (s : State) :
    (advanceCursor s).debounced = s.debounced := rfl
@[simp] theorem advanceCursor_changed (s : State) :
    (advanceCursor s).changed = s.changed := rfl
@[simp] theorem advanceCursor_constructed (s : State) :
    (advanceCursor s).constructed = s.constructed := rfl
@[simp] theorem advanceCursor_result (s : State) :
    (advanceCursor s).result = s.result := rfl
@[simp] theorem advanceCursor_pending (s : State) :
    (advanceCursor s).pending = s.pending := rfl
@[simp] theorem advanceCursor_powerCycles (s : State) :
    (advanceCursor s).powerCycles = s.powerCycles := rfl

@[simp] theorem markEdges_cfg (s : State) (new : Byte) :
    (markEdges s new).cfg = s.cfg := rfl
@[simp] theorem markEdges_window (s : State) (new : Byte) :
    (markEdges s new).window.toList = s.window.toList := rfl
@[simp] theorem markEdges_cursor (s : State) (new : Byte) :
    (markEdges s new).cursor.val = s.cursor.val := rfl
@[simp] theorem markEdges_debounced (s : State) (new : Byte) :
    (markEdges s new).debounced = s.debounced := rfl
@[simp] theorem markEdges_changed (s : State) (new : Byte) :
    (markEdges s new).changed = edgeMask new s.debounced := rfl
@[simp] theorem markEdges_constructed (s : State) (new : Byte) :
    (markEdges s new).constructed = s.constructed := rfl
@[simp] theorem markEdges_result (s : State) (new : Byte) :
    (markEdges s new).result = s.result := rfl
@[simp] theorem markEdges_pending (s : State) (new : Byte) :
    (markEdges s new).pending = s.pending := rfl
@[simp] theorem markEdges_powerCycles (s : State) (new : Byte) :
    (markEdges s new).powerCycles = s.powerCycles := rfl

@[simp] theorem commitState_cfg (s : State) (new : Byte) :
    (commitState s new).cfg = s.cfg := rfl
@[simp] theorem commitState_window (s : State) (new : Byte) :
    (commitState s new).window.toList = s.window.toList := rfl
@[simp] theorem commitState_cursor (s : State) (new : Byte) :
    (commitState s new).cursor.val = s.cursor.val := rfl
@[simp] theorem commitState_debounced (s : State) (new : Byte) :
    (commitState s new).debounced = new := rfl
@[simp] theorem commitState_changed (s : State) (new : Byte) :
    (commitState s new).changed = s.changed := rfl
@[simp] theorem commitState_constructed (s : State) (new : Byte) :
    (commitState s new).constructed = s.constructed := rfl
@[simp] theorem commitState_result (s : State) (new : Byte) :
    (commitState s new).result = s.result := rfl
@[simp] theorem commitState_pending (s : State) (new : Byte) :
    (commitState s new).pending = s.pending := rfl
@[simp] theorem commitState_powerCycles (s : State) (new : Byte) :
    (commitState s new).powerCycles = s.powerCycles := rfl

@[simp] theorem answer_cfg (s : State) (value : Byte) :
    (answer s value).cfg = s.cfg := rfl
@[simp] theorem answer_window (s : State) (value : Byte) :
    (answer s value).window.toList = s.window.toList := rfl
@[simp] theorem answer_cursor (s : State) (value : Byte) :
    (answer s value).cursor.val = s.cursor.val := rfl
@[simp] theorem answer_debounced (s : State) (value : Byte) :
    (answer s value).debounced = s.debounced := rfl
@[simp] theorem answer_changed (s : State) (value : Byte) :
    (answer s value).changed = s.changed := rfl
@[simp] theorem answer_constructed (s : State) (value : Byte) :
    (answer s value).constructed = s.constructed := rfl
@[simp] theorem answer_result (s : State) (value : Byte) :
    (answer s value).result = some value := rfl
@[simp] theorem answer_pending (s : State) (value : Byte) :
    (answer s value).pending = s.pending := rfl
@[simp] theorem answer_powerCycles (s : State) (value : Byte) :
    (answer s value).powerCycles = s.powerCycles := rfl

@[simp] theorem answerNothing_cfg (s : State) :
    (answerNothing s).cfg = s.cfg := rfl
@[simp] theorem answerNothing_window (s : State) :
    (answerNothing s).window.toList = s.window.toList := rfl
@[simp] theorem answerNothing_cursor (s : State) :
    (answerNothing s).cursor.val = s.cursor.val := rfl
@[simp] theorem answerNothing_debounced (s : State) :
    (answerNothing s).debounced = s.debounced := rfl
@[simp] theorem answerNothing_changed (s : State) :
    (answerNothing s).changed = s.changed := rfl
@[simp] theorem answerNothing_constructed (s : State) :
    (answerNothing s).constructed = s.constructed := rfl
@[simp] theorem answerNothing_result (s : State) :
    (answerNothing s).result = none := rfl
@[simp] theorem answerNothing_pending (s : State) :
    (answerNothing s).pending = s.pending := rfl
@[simp] theorem answerNothing_powerCycles (s : State) :
    (answerNothing s).powerCycles = s.powerCycles := rfl

@[simp] theorem takeEvent_cfg (s : State) (rest : List HostEvent) :
    (takeEvent s rest).cfg = s.cfg := rfl
@[simp] theorem takeEvent_window (s : State) (rest : List HostEvent) :
    (takeEvent s rest).window.toList = s.window.toList := rfl
@[simp] theorem takeEvent_cursor (s : State) (rest : List HostEvent) :
    (takeEvent s rest).cursor.val = s.cursor.val := rfl
@[simp] theorem takeEvent_debounced (s : State) (rest : List HostEvent) :
    (takeEvent s rest).debounced = s.debounced := rfl
@[simp] theorem takeEvent_changed (s : State) (rest : List HostEvent) :
    (takeEvent s rest).changed = s.changed := rfl
@[simp] theorem takeEvent_constructed (s : State) (rest : List HostEvent) :
    (takeEvent s rest).constructed = s.constructed := rfl
@[simp] theorem takeEvent_result (s : State) (rest : List HostEvent) :
    (takeEvent s rest).result = s.result := rfl
@[simp] theorem takeEvent_pending (s : State) (rest : List HostEvent) :
    (takeEvent s rest).pending = rest := rfl
@[simp] theorem takeEvent_powerCycles (s : State) (rest : List HostEvent) :
    (takeEvent s rest).powerCycles = s.powerCycles := rfl

@[simp] theorem State.facing_cfg (s : State) (events : List HostEvent) :
    (s.facing events).cfg = s.cfg := rfl
@[simp] theorem State.facing_window (s : State) (events : List HostEvent) :
    (s.facing events).window.toList = s.window.toList := rfl
@[simp] theorem State.facing_cursor (s : State) (events : List HostEvent) :
    (s.facing events).cursor.val = s.cursor.val := rfl
@[simp] theorem State.facing_debounced (s : State) (events : List HostEvent) :
    (s.facing events).debounced = s.debounced := rfl
@[simp] theorem State.facing_changed (s : State) (events : List HostEvent) :
    (s.facing events).changed = s.changed := rfl
@[simp] theorem State.facing_constructed (s : State) (events : List HostEvent) :
    (s.facing events).constructed = s.constructed := rfl
@[simp] theorem State.facing_result (s : State) (events : List HostEvent) :
    (s.facing events).result = s.result := rfl
@[simp] theorem State.facing_pending (s : State) (events : List HostEvent) :
    (s.facing events).pending = events := rfl
@[simp] theorem State.facing_powerCycles (s : State) (events : List HostEvent) :
    (s.facing events).powerCycles = s.powerCycles := rfl

@[simp] theorem deliverWord_cfg (s : State) (word : OpWord) :
    (deliverWord s word).cfg = s.cfg := rfl
@[simp] theorem deliverWord_window (s : State) (word : OpWord) :
    (deliverWord s word).window.toList = s.window.toList := rfl
@[simp] theorem deliverWord_cursor (s : State) (word : OpWord) :
    (deliverWord s word).cursor.val = s.cursor.val := rfl
@[simp] theorem deliverWord_debounced (s : State) (word : OpWord) :
    (deliverWord s word).debounced = s.debounced := rfl
@[simp] theorem deliverWord_changed (s : State) (word : OpWord) :
    (deliverWord s word).changed = s.changed := rfl
@[simp] theorem deliverWord_constructed (s : State) (word : OpWord) :
    (deliverWord s word).constructed = s.constructed := rfl
@[simp] theorem deliverWord_result (s : State) (word : OpWord) :
    (deliverWord s word).result = s.result := rfl
@[simp] theorem deliverWord_pending (s : State) (word : OpWord) :
    (deliverWord s word).pending = HostEvent.operation word :: s.pending := rfl
@[simp] theorem deliverWord_powerCycles (s : State) (word : OpWord) :
    (deliverWord s word).powerCycles = s.powerCycles := rfl

@[simp] theorem reconstruct_cfg (s : State) :
    (reconstruct s).cfg = s.cfg := rfl
@[simp] theorem reconstruct_window (s : State) :
    (reconstruct s).window.toList = List.replicate s.cfg.n 0 := Vector.toList_replicate
@[simp] theorem reconstruct_cursor (s : State) :
    (reconstruct s).cursor.val = 0 := rfl
@[simp] theorem reconstruct_debounced (s : State) :
    (reconstruct s).debounced = 0 := rfl
@[simp] theorem reconstruct_changed (s : State) :
    (reconstruct s).changed = 0 := rfl
@[simp] theorem reconstruct_constructed (s : State) :
    (reconstruct s).constructed = true := rfl
@[simp] theorem reconstruct_result (s : State) :
    (reconstruct s).result = none := rfl
@[simp] theorem reconstruct_pending (s : State) :
    (reconstruct s).pending = s.pending := rfl
@[simp] theorem reconstruct_powerCycles (s : State) :
    (reconstruct s).powerCycles = s.powerCycles := rfl

@[simp] theorem losePower_cfg (s : State) :
    (losePower s).cfg = s.cfg := rfl
@[simp] theorem losePower_cursor (s : State) :
    (losePower s).cursor.val = Config.powerUpCursor s.powerCycles % s.cfg.n := rfl
@[simp] theorem losePower_debounced (s : State) :
    (losePower s).debounced = Config.powerUpByte s.powerCycles 0 := rfl
@[simp] theorem losePower_changed (s : State) :
    (losePower s).changed = Config.powerUpByte s.powerCycles 1 := rfl
@[simp] theorem losePower_constructed (s : State) :
    (losePower s).constructed = false := rfl
@[simp] theorem losePower_result (s : State) :
    (losePower s).result = none := rfl
@[simp] theorem losePower_pending (s : State) :
    (losePower s).pending = s.pending := rfl
@[simp] theorem losePower_powerCycles (s : State) :
    (losePower s).powerCycles = s.powerCycles + 1 := rfl

@[simp] theorem State.construction_cfg (cfg : Config) : (State.construction cfg).cfg = cfg := rfl
@[simp] theorem State.construction_window (cfg : Config) :
    (State.construction cfg).window.toList = List.replicate cfg.n 0 := Vector.toList_replicate
@[simp] theorem State.construction_cursor (cfg : Config) : (State.construction cfg).cursor.val = 0 := rfl
@[simp] theorem State.construction_debounced (cfg : Config) : (State.construction cfg).debounced = 0 := rfl
@[simp] theorem State.construction_changed (cfg : Config) : (State.construction cfg).changed = 0 := rfl
@[simp] theorem State.construction_constructed (cfg : Config) :
    (State.construction cfg).constructed = true := rfl
@[simp] theorem State.construction_result (cfg : Config) : (State.construction cfg).result = none := rfl
@[simp] theorem State.construction_pending (cfg : Config) : (State.construction cfg).pending = [] := rfl
@[simp] theorem State.construction_powerCycles (cfg : Config) :
    (State.construction cfg).powerCycles = 0 := rfl

/-- Putting back the events a state already faces changes nothing. -/
@[simp] theorem State.facing_pending_self (s : State) : s.facing s.pending = s := rfl

@[simp] theorem State.facing_facing (s : State) (a b : List HostEvent) :
    (s.facing a).facing b = s.facing b := rfl

@[simp] theorem State.facing_registers (s : State) (events : List HostEvent) :
    (s.facing events).registers = s.registers := rfl

/-- Equal registers, field by field. -/
theorem State.registers_eq_iff (s t : State) : s.registers = t.registers ↔
    s.cfg = t.cfg ∧ s.window.toList = t.window.toList ∧ s.cursor.val = t.cursor.val ∧
      s.debounced = t.debounced ∧ s.changed = t.changed ∧ s.constructed = t.constructed := by
  simp [State.registers]

end Sys2Proof.Machine
end

