-- ==== Sys2Proof/Laws/Window.lean ====
section
/-! SUPPORT. Facts about lists that the window operations rest on: the AND of entries channel by channel, and one turn of a ring. -/

namespace Sys2Proof.Machine

open Sys2Proof

theorem foldl_and_channel (entries : List Byte) (start : Byte) (c : Channel) :
    (entries.foldl (· &&& ·) start)[c.val] = (start[c.val] && entries.all (·[c.val])) := by
  induction entries generalizing start with
  | nil => simp
  | cons e es ih => simp [ih, Bool.and_assoc]

/-- A channel of the AND is set exactly when it is set in every entry (R106). -/
@[simp] theorem andAll_channel (entries : List Byte) (c : Channel) :
    (andAll entries)[c.val] = entries.all (·[c.val]) := by
  have hc : (0xFF : Byte)[c.val] = true := by revert c; decide
  rw [andAll, foldl_and_channel, hc, Bool.true_and]

/-- Two bytes are equal when every channel agrees. -/
theorem byte_eq_of_channels {a b : Byte} (h : ∀ c : Channel, a[c.val] = b[c.val]) : a = b :=
  BitVec.eq_of_getElem_eq fun i hi => h ⟨i, hi⟩

theorem andAll_append_comm (xs ys : List Byte) : andAll (xs ++ ys) = andAll (ys ++ xs) :=
  byte_eq_of_channels fun c => by simp [Bool.and_comm]

/-- One turn of a ring: overwriting the slot at the cursor and moving on drops the oldest entry and adds the new
one at the end (R103, R104, R105). -/
theorem ring_turn {α : Type} (ring : List α) (i : Nat) (x : α) (hi : i < ring.length) :
    (ring.set i x).drop ((i + 1) % ring.length) ++ (ring.set i x).take ((i + 1) % ring.length) =
      (ring.drop i ++ ring.take i).tail ++ [x] := by
  have hdrop : ring.drop i = ring[i] :: ring.drop (i + 1) := List.drop_eq_getElem_cons hi
  have hset : ring.set i x = ring.take i ++ x :: ring.drop (i + 1) := List.set_eq_take_append_cons_drop .. |>.trans (by simp [hi])
  have hlen : (ring.take i).length = i := by simp; omega
  by_cases hwrap : i + 1 = ring.length
  · have hnil : ring.drop (i + 1) = [] := by simp [hwrap]
    simp [hset, hdrop, hwrap]
  · have hmod : (i + 1) % ring.length = i + 1 := Nat.mod_eq_of_lt (by omega)
    have htake : (ring.take i ++ x :: ring.drop (i + 1)).take (i + 1) = ring.take i ++ [x] := by
      rw [List.take_append, hlen]; simp
    have hrest : (ring.take i ++ x :: ring.drop (i + 1)).drop (i + 1) = ring.drop (i + 1) := by
      rw [List.drop_append, hlen]; simp
    rw [hmod, hset, htake, hrest, hdrop, List.cons_append, List.tail_cons, List.append_assoc]

/-- Turning the ring once per element leaves the newest `ring.length` of all elements. -/
theorem ring_turns {α : Type} (xs ring : List α) (h : ring ≠ []) :
    xs.foldl (fun r x => r.tail ++ [x]) ring = (ring ++ xs).drop xs.length := by
  induction xs generalizing ring with
  | nil => simp
  | cons x xs ih =>
    obtain ⟨r, rs, rfl⟩ := List.exists_cons_of_ne_nil h
    simp [ih]

end Sys2Proof.Machine
end

