-- ==== Sys2Proof/Laws/Ops.lean ====
section
/-! SUPPORT. What each shared operation and each meaning does, said once: the fields of the state after `process`, the window as a ring, the queries, one event, one step. -/

namespace Sys2Proof.Machine

open Sys2Proof

section Process

variable (v : Byte) (s : State)

@[simp] theorem processed_cfg : (processed v s).cfg = s.cfg := rfl
@[simp] theorem processed_constructed : (processed v s).constructed = s.constructed := rfl
@[simp] theorem processed_pending : (processed v s).pending = s.pending := rfl
@[simp] theorem processed_powerCycles : (processed v s).powerCycles = s.powerCycles := rfl
@[simp] theorem processed_result : (processed v s).result = none := rfl
@[simp] theorem processed_window :
    (processed v s).window.toList = s.window.toList.set s.cursor.val (correctSample s.cfg v) :=
  storeSample_window s _
@[simp] theorem processed_cursor : (processed v s).cursor.val = (s.cursor.val + 1) % s.cfg.n := rfl
theorem processed_debounced : (processed v s).debounced = andAll (processed v s).window.toList := rfl
theorem processed_changed : (processed v s).changed = (processed v s).debounced ^^^ s.debounced := rfl

@[simp] theorem processed_facing (events : List HostEvent) :
    processed v (s.facing events) = (processed v s).facing events := rfl

end Process

/-- The window has exactly `N` entries (R21). -/
@[simp] theorem window_length (s : State) : s.window.toList.length = s.cfg.n := by simp

@[simp] theorem oldestFirst_length (s : State) : s.oldestFirst.length = s.cfg.n := by
  simp [State.oldestFirst]

theorem oldestFirst_ne_nil (s : State) : s.oldestFirst ≠ [] :=
  List.ne_nil_of_length_pos (by rw [oldestFirst_length]; exact s.cfg.n_pos)

@[simp] theorem facing_oldestFirst (s : State) (events : List HostEvent) :
    (s.facing events).oldestFirst = s.oldestFirst := rfl

/-- The AND of the window does not depend on where the ring starts (R30). -/
theorem andAll_oldestFirst (s : State) : andAll s.oldestFirst = andAll s.window.toList := by
  rw [State.oldestFirst, andAll_append_comm, List.take_append_drop]

/-- `process` drops the oldest entry and adds the corrected sample as the newest (R103, R105). -/
theorem processed_oldestFirst (v : Byte) (s : State) :
    (processed v s).oldestFirst = s.oldestFirst.tail ++ [correctSample s.cfg v] := by
  have h := ring_turn s.window.toList s.cursor.val (correctSample s.cfg v) (by simp)
  rw [window_length] at h
  rw [State.oldestFirst, processed_window, processed_cursor, h]; rfl

/-- The debounced state after `process` is the AND of the newest `N` corrected samples. -/
theorem processed_debounced_ring (v : Byte) (s : State) :
    (processed v s).debounced = andAll (s.oldestFirst.tail ++ [correctSample s.cfg v]) := by
  rw [processed_debounced, ← andAll_oldestFirst, processed_oldestFirst]

/-- A corrected sample, channel by channel (R101). -/
@[simp] theorem correctSample_channel (cfg : Config) (v : Byte) (c : Channel) :
    (correctSample cfg v)[c.val] = (v[c.val] ^^ cfg.polarityMask[c.val]) := by
  simp [correctSample]

/-- `process` writes the corrected sample at the cursor (R103). -/
theorem processed_entry_self (v : Byte) (s : State) :
    (processed v s).entry s.cursor.val = some (correctSample s.cfg v) := by
  rw [State.entry, processed_window, List.getElem?_set_self (by simp)]

/-- `process` leaves the other entries (R103). -/
theorem processed_entry_other (v : Byte) (s : State) {i : Nat} (h : i ≠ s.cursor.val) :
    (processed v s).entry i = s.entry i := by
  rw [State.entry, processed_window, List.getElem?_set_ne h.symm, State.entry]

/-- What a query answers, in terms of `DEBOUNCED_STATE` and `CHANGED` alone (R130-R133). -/
def queryAnswer (q : Instr) (debounced changed : Byte) : Byte :=
  match q with
  | .process _ => 0
  | .pressed m => m &&& (changed &&& debounced)
  | .released m => m &&& (changed &&& ~~~debounced)
  | .debouncedStateGet m => m &&& debounced

/-- A query completes in the same state with its answer (R130). -/
theorem exec_query {q : Instr} (h : isQuery q = true) (s : State) :
    exec q s = .next (answer s (queryAnswer q s.debounced s.changed)) := by
  cases q with
  | process v => cases h
  | pressed m => rfl
  | released m => rfl
  | debouncedStateGet m => rfl

/-- Every instruction completes: `process` in the processed state, a query in the same state with its answer
(R100, R130, R150). -/
theorem exec_cases (i : Instr) (s : State) :
    (∃ v, i = .process v ∧ exec i s = .next (processed v s)) ∨
      (isQuery i = true ∧ exec i s = .next (answer s (queryAnswer i s.debounced s.changed))) := by
  cases h : isQuery i with
  | true => exact .inr ⟨rfl, exec_query h s⟩
  | false =>
    cases i with
    | process v => exact .inl ⟨v, rfl, rfl⟩
    | pressed m => cases h
    | released m => cases h
    | debouncedStateGet m => cases h

/-- `whenConstructed` answers a next state only on a constructed instance (R182). -/
theorem whenConstructed_eq_next_iff {s t : State} {o : Host.Outcome State Fault Refusal} :
    whenConstructed s o = .next t ↔ s.constructed = true ∧ o = .next t := by
  unfold whenConstructed; split <;> simp_all

@[simp] theorem whenConstructed_of_true {s : State} {o : Host.Outcome State Fault Refusal}
    (h : s.constructed = true) : whenConstructed s o = o := by simp [whenConstructed, h]

@[simp] theorem whenConstructed_of_false {s : State} {o : Host.Outcome State Fault Refusal}
    (h : s.constructed = false) : whenConstructed s o = .fault .beforeReset := by simp [whenConstructed, h]

/-- Everything one event can do when it answers a next state: nothing, one `process`, one query, one reset, or a
loss of power. -/
theorem performEvent_cases {e : HostEvent} {s t : State} (h : performEvent e s = .next t) :
    t = s ∨ (s.constructed = true ∧ ∃ v, t = processed v s) ∨ (s.constructed = true ∧ ∃ b, t = answer s b) ∨
      t = reconstruct s ∨ t = losePower s := by
  cases e with
  | operation w =>
    obtain ⟨hc, he⟩ := whenConstructed_eq_next_iff.mp h
    rcases exec_cases (decode w) s with ⟨v, _, hv⟩ | ⟨_, hb⟩
    · exact .inr (.inl ⟨hc, v, by simpa [hv] using he.symm⟩)
    · exact .inr (.inr (.inl ⟨hc, _, by simpa [hb] using he.symm⟩))
  | clockEdge pins =>
    simp only [performEvent, clockEdge] at h
    split at h
    · simp_all
    · split at h
      · obtain ⟨hc, he⟩ := whenConstructed_eq_next_iff.mp h
        exact .inr (.inl ⟨hc, pins.rawSample, by simpa [execProcess] using he.symm⟩)
      · simp_all
  | powerCycle => simp_all [performEvent]

/-- Everything one step can do when it answers a next state: hold, or perform the oldest pending event. -/
theorem step_cases {s t : State} (h : step s = .next t) :
    (s.pending = [] ∧ t = s) ∨
      ∃ e rest, s.pending = e :: rest ∧ performEvent e (takeEvent s rest) = .next t := by
  unfold step at h
  split at h
  · simp_all
  · exact .inr ⟨_, _, ‹_›, h⟩

end Sys2Proof.Machine
end

