-- ==== Sys2Proof/Laws/Counters.lean ====
section
/-! SUPPORT. The counter form field by field, so that a proof about it unfolds no record (spec/40_process.md R116). -/

namespace Sys2Proof.Machine

open Sys2Proof

@[simp] theorem State.counters_cfg (s : State) : s.counters.cfg = s.cfg := rfl
@[simp] theorem State.counters_debounced (s : State) : s.counters.debounced = s.debounced := rfl
@[simp] theorem State.counters_changed (s : State) : s.counters.changed = s.changed := rfl
@[simp] theorem State.counters_result (s : State) : s.counters.result = s.result := rfl
theorem State.counters_run (s : State) (c : Channel) :
    s.counters.run[c.val] = (s.oldestFirst.reverse.takeWhile (·[c.val])).length := by
  simp [State.counters]

@[simp] theorem Counters.process_cfg (k : Counters) (v : Byte) : (k.process v).cfg = k.cfg := rfl
@[simp] theorem Counters.process_result (k : Counters) (v : Byte) : (k.process v).result = none := rfl
theorem Counters.process_changed (k : Counters) (v : Byte) :
    (k.process v).changed = (k.process v).debounced ^^^ k.debounced := rfl
theorem Counters.process_run (k : Counters) (v : Byte) (c : Channel) :
    (k.process v).run[c.val] = nextRun k.cfg ((v ^^^ k.cfg.polarityMask)[c.val]) k.run[c.val] := by
  simp [Counters.process]
theorem Counters.process_debounced (k : Counters) (v : Byte) (c : Channel) :
    (k.process v).debounced[c.val] = ((k.process v).run[c.val] == k.cfg.n) := by
  rw [← BitVec.getLsbD_eq_getElem, Counters.process, BitVec.getLsbD_ofFnLE]
  simp

/-- Two counter states are equal when they agree field by field. -/
theorem Counters.eq_of_fields {a b : Counters} (hcfg : a.cfg = b.cfg)
    (hrun : ∀ c : Channel, a.run[c.val] = b.run[c.val]) (hd : a.debounced = b.debounced)
    (hc : a.changed = b.changed) (hr : a.result = b.result) : a = b := by
  have h : a.run = b.run := Vector.ext fun i hi => hrun ⟨i, hi⟩
  cases a; cases b; simp_all

end Sys2Proof.Machine
end

