-- ==== Sys2Proof/Laws/PerInstr.lean ====
section
/-! SUPPORT. Facts about each instruction as syntax, one lemma per constructor of `Instr`: its encoding decodes to it (spec/30_encoding.md R71-R74). -/

namespace Sys2Proof.Laws.RoundTrip

open Sys2Proof

/-- The word of an operation is the word of that operation only. -/
def Statement (i : Instr) : Prop :=
  decode (encode i) = i

theorem process (rawSample : Byte) : Statement (.process rawSample) := by
  unfold Statement; revert rawSample; decide

theorem pressed (channelMask : Byte) : Statement (.pressed channelMask) := by
  unfold Statement; revert channelMask; decide

theorem released (channelMask : Byte) : Statement (.released channelMask) := by
  unfold Statement; revert channelMask; decide

theorem debouncedStateGet (channelMask : Byte) : Statement (.debouncedStateGet channelMask) := by
  unfold Statement; revert channelMask; decide

end Sys2Proof.Laws.RoundTrip
end

