-- ==== Sys2Proof/Laws/Run.lean ====
section
/-! SUPPORT. Runs over the host's events: the run of a list of events is its first event and then the run of the rest; a run of samples is the fold of `process`. -/

namespace Sys2Proof.Machine

open Sys2Proof

/-- What follows an outcome: go on from a next state, stop where it stops. -/
def andThen (o : Host.Outcome State Fault Refusal) (k : State → Host.Outcome State Fault Refusal) :
    Host.Outcome State Fault Refusal :=
  match o with
  | .next t => k t
  | .fault r => .fault r
  | .refused r => .refused r

@[simp] theorem andThen_next (t : State) (k : State → Host.Outcome State Fault Refusal) :
    andThen (.next t) k = k t := rfl
@[simp] theorem andThen_fault (r : Fault) (k : State → Host.Outcome State Fault Refusal) :
    andThen (.fault r) k = .fault r := rfl
@[simp] theorem andThen_refused (r : Refusal) (k : State → Host.Outcome State Fault Refusal) :
    andThen (.refused r) k = .refused r := rfl

/-- No event touches the events still to come. -/
theorem performEvent_pending {e : HostEvent} {s t : State} (h : performEvent e s = .next t) :
    t.pending = s.pending := by
  rcases performEvent_cases h with rfl | ⟨_, _, rfl⟩ | ⟨_, _, rfl⟩ | rfl | rfl <;> rfl

@[simp] theorem performAll_nil (s : State) : performAll s [] = .next (s.facing []) := rfl

@[simp] theorem performAll_facing (s : State) (es fs : List HostEvent) :
    performAll (s.facing fs) es = performAll s es := rfl

theorem run_succ_next {M : Host.Core} {k : Nat} {s t : M.State} (h : M.step s = .next t) :
    M.run (k + 1) s = M.run k t := by simp [Host.Core.run, h]
theorem run_succ_fault {M : Host.Core} {k : Nat} {s : M.State} {r : M.Fault} (h : M.step s = .fault r) :
    M.run (k + 1) s = .fault r := by simp [Host.Core.run, h]
theorem run_succ_refused {M : Host.Core} {k : Nat} {s : M.State} {r : M.Refusal} (h : M.step s = .refused r) :
    M.run (k + 1) s = .refused r := by simp [Host.Core.run, h]

/-- A run is its first event and then the run of the rest. -/
theorem performAll_cons (s : State) (e : HostEvent) (es : List HostEvent) :
    performAll s (e :: es) = andThen (performEvent e (s.facing es)) (performAll · es) := by
  cases h : performEvent e (s.facing es) with
  | next t =>
    have hp : t.facing es = t := by
      rw [show es = t.pending from (performEvent_pending h).symm, State.facing_pending_self]
    rw [andThen_next, performAll, performAll, hp]
    exact run_succ_next (M := core) h
  | fault r => exact run_succ_fault (M := core) h
  | refused r => exact run_succ_refused (M := core) h

/-- What one event does does not depend on the events still to come. -/
theorem performEvent_facing (e : HostEvent) (s : State) (es : List HostEvent) :
    performEvent e (s.facing es) =
      andThen (performEvent e s) (fun t => .next (t.facing es)) := by
  have hwhen (o p : Host.Outcome State Fault Refusal)
      (h : p = andThen o fun t => .next (t.facing es)) :
      whenConstructed (s.facing es) p = andThen (whenConstructed s o) fun t => .next (t.facing es) := by
    rcases hc : s.constructed with _ | _
    · rw [whenConstructed_of_false hc, whenConstructed_of_false (s := s.facing es) hc]; rfl
    · rw [whenConstructed_of_true hc, whenConstructed_of_true (s := s.facing es) hc, h]
  cases e with
  | operation w => exact hwhen _ _ (by cases decode w <;> rfl)
  | clockEdge pins =>
    simp only [performEvent, clockEdge]
    split
    · rfl
    · split
      · exact hwhen _ _ rfl
      · rfl
  | powerCycle => rfl

/-- The outcome of the first event of a run, in terms of the state without its events. -/
theorem performAll_cons_of_next {s t : State} {e : HostEvent} (h : performEvent e s = .next t)
    (es : List HostEvent) : performAll s (e :: es) = performAll t es := by
  rw [performAll_cons, performEvent_facing, h]; rfl

/-- A run stops at the first event that stops. -/
theorem performAll_cons_of_fault {s : State} {e : HostEvent} {r : Fault} (h : performEvent e s = .fault r)
    (es : List HostEvent) : performAll s (e :: es) = .fault r := by
  rw [performAll_cons, performEvent_facing, h]; rfl

theorem performAll_append (s : State) (es fs : List HostEvent) :
    performAll s (es ++ fs) = andThen (performAll s es) (performAll · fs) := by
  induction es generalizing s with
  | nil => simp
  | cons e es ih =>
    cases h : performEvent e s with
    | next t => rw [List.cons_append, performAll_cons_of_next h, performAll_cons_of_next h, ih]
    | fault r => rw [List.cons_append, performAll_cons_of_fault h, performAll_cons_of_fault h]; rfl
    | refused r =>
      rw [List.cons_append, performAll_cons, performAll_cons, performEvent_facing, performEvent_facing, h]; rfl

/-- An operation's word performs that operation, on a constructed instance (R71, R73, R182). -/
theorem performEvent_operation (i : Instr) {s : State} (h : s.constructed = true) :
    performEvent (operationEvent i) s = exec i s := by
  have hd : decode (encode i) = i := by
    cases i with
    | process v => exact Laws.RoundTrip.process v
    | pressed m => exact Laws.RoundTrip.pressed m
    | released m => exact Laws.RoundTrip.released m
    | debouncedStateGet m => exact Laws.RoundTrip.debouncedStateGet m
  rw [operationEvent, performEvent, hd, whenConstructed_of_true h]

/-- One sample event on a constructed instance is one `process` (R81). -/
theorem performEvent_sample (v : Byte) {s : State} (h : s.constructed = true) :
    performEvent (sampleEvent v) s = .next (processed v s) :=
  performEvent_operation (.process v) h

/-- The state after samples, one `process` each. -/
def ingested (s : State) (vs : List Byte) : State :=
  vs.foldl (fun t v => processed v t) s

@[simp] theorem ingested_nil (s : State) : ingested s [] = s := rfl
@[simp] theorem ingested_cons (s : State) (v : Byte) (vs : List Byte) :
    ingested s (v :: vs) = ingested (processed v s) vs := rfl

@[simp] theorem ingested_cfg (s : State) (vs : List Byte) : (ingested s vs).cfg = s.cfg := by
  induction vs generalizing s with
  | nil => rfl
  | cons v vs ih => simp [ih]

@[simp] theorem ingested_constructed (s : State) (vs : List Byte) :
    (ingested s vs).constructed = s.constructed := by
  induction vs generalizing s with
  | nil => rfl
  | cons v vs ih => simp [ih]

theorem ingested_append (s : State) (vs ws : List Byte) :
    ingested s (vs ++ ws) = ingested (ingested s vs) ws := List.foldl_append ..

/-- A run of samples on a constructed instance is the fold of `process` over them. -/
theorem performAll_samples (vs : List Byte) {s : State} (h : s.constructed = true) :
    performAll s (vs.map sampleEvent) = .next ((ingested s vs).facing []) := by
  induction vs generalizing s with
  | nil => rfl
  | cons v vs ih =>
    rw [List.map_cons, performAll_cons_of_next (performEvent_sample v h), ih (by simpa using h)]; rfl

/-- After samples the ring holds the newest `N` of the old entries and the corrected samples, oldest first (R105). -/
theorem ingested_oldestFirst (s : State) (vs : List Byte) :
    (ingested s vs).oldestFirst = (s.oldestFirst ++ vs.map (correctSample s.cfg)).drop vs.length := by
  have hfold : (ingested s vs).oldestFirst =
      (vs.map (correctSample s.cfg)).foldl (fun r x => r.tail ++ [x]) s.oldestFirst := by
    induction vs generalizing s with
    | nil => rfl
    | cons v vs ih => simp [ih, processed_oldestFirst]
  rw [hfold, ring_turns _ _ (oldestFirst_ne_nil s), List.length_map]

/-- After at least one sample the debounced state is the AND of the ring (R106, R26). -/
theorem ingested_debounced (s : State) {vs : List Byte} (h : vs ≠ []) :
    (ingested s vs).debounced = andAll (ingested s vs).oldestFirst := by
  rw [← List.dropLast_concat_getLast h, ingested_append, andAll_oldestFirst]; rfl

/-- One sample more. -/
theorem ingested_concat (s : State) (vs : List Byte) (v : Byte) :
    ingested s (vs ++ [v]) = processed v (ingested s vs) := ingested_append s vs [v]

/-- The cursor has moved once per sample (R30). -/
theorem ingested_cursor (s : State) (vs : List Byte) :
    (ingested s vs).cursor.val = (s.cursor.val + vs.length) % s.cfg.n := by
  induction vs generalizing s with
  | nil => simpa using (Nat.mod_eq_of_lt s.cursor.isLt).symm
  | cons v vs ih => simp [ih, Nat.add_assoc, Nat.add_comm 1]

end Sys2Proof.Machine
end

