-- ==== Sys2Proof/Tests/Slice0.lean ====
section
/-! SUPPORT. The model's own tests. Expected values come from the worked examples and vectors of spec/95_test_vectors.md (named in each comment) or are words written out from spec/30_encoding.md R71 and R73. After them: for every statement with hypotheses, a state and operands that meet them together. -/

namespace Sys2Proof.Tests

open Sys2Proof Sys2Proof.Machine

/-- A small constructed state: `W=window C=cursor D=debounced CH=changed` of the spec's notation. -/
def small (cfg : Config) (window : Vector Byte cfg.n) (cursor : Fin cfg.n) (debounced changed : Byte) : State :=
  { State.construction cfg with
    window := window, cursor := cursor, debounced := debounced, changed := changed }

def cfgOne : Config := ⟨1, 0xAA, by decide, by decide⟩
def cfgThree : Config := ⟨3, 0x00, by decide, by decide⟩
def cfgPullUp : Config := ⟨3, 0xFF, by decide, by decide⟩
def cfgMixed : Config := ⟨3, 0x0F, by decide, by decide⟩

/-- L2-E rows 1-3: `W=[0xFF,0x0F,0x3C]`, `D=0x0C`. -/
def threeAt (cursor : Fin 3) : State := small cfgThree #v[0xFF, 0x0F, 0x3C] cursor 0x0C 0x00

/-- L2-F: a state with the given debounced and changed bytes. -/
def edges (debounced changed : Byte) : State := small cfgThree #v[0, 0, 0] (0 : Fin 3) debounced changed

def word (i : Instr) : HostEvent := operationEvent i

def edge (rst sampleValid : Bool) (rawSample : Byte) : HostEvent :=
  .clockEdge ⟨rst, sampleValid, rawSample, 0x00⟩

/-- A field of the next state, `none` where there is no next state. -/
def after {α : Type} (o : Host.Outcome State Fault Refusal) (read : State → α) : Option α :=
  match o with
  | .next t => some (read t)
  | .fault _ => none
  | .refused _ => none

/-! ## Decoding: `op` in bits 9:8, `data` in bits 7:0 (R71, R73; L2-A) -/

theorem test_decode_process : decode 0b00_11111111 = .process 0xFF := by decide
theorem test_decode_pressed : decode 0b01_10100101 = .pressed 0xA5 := by decide
theorem test_decode_released : decode 0b10_01011010 = .released 0x5A := by decide
theorem test_decode_debouncedStateGet : decode 0b11_11110000 = .debouncedStateGet 0xF0 := by decide
theorem test_encode_pressed : encode (.pressed 0x04) = 0x104 := by decide  -- L1-8

/-! ## WellFormed: the checks refuse ill-formed terms. An operation has none: its operand's type is 8 bits (R72). -/

theorem test_immediate_256_refused : legalImmediate 256 = false ∧ legalImmediate 255 = true := by decide
theorem test_window_size_refused : legalWindowSize 0 = false ∧ legalWindowSize 256 = false := by decide
theorem test_operation_well_formed : (Instr.process 0xFF).wellFormed = true := by decide
/-- L1-9: `N` = 0 and `N` = 256 are rejected with their causes. -/
theorem test_construction_rejected : construct 0 0x5A = .error .cfgNZero ∧ construct 256 0x00 = .error .cfgNRange :=
  ⟨rfl, rfl⟩

/-! ## process (L2-E) -/

/-- Row 2: channels 2 and 3 are released. -/
theorem test_process_releases :
    after (exec (.process 0xF0) (threeAt 0)) (fun t => (t.window.toList, t.cursor.val, t.debounced, t.changed)) =
      some ([0xF0, 0x0F, 0x3C], 1, 0x00, 0x0C) := by decide
/-- Row 3: the write at the last entry wraps the cursor; channels 0 and 1 are pressed. -/
theorem test_process_wraps_and_presses :
    after (exec (.process 0xFF) (threeAt 2)) (fun t => (t.window.toList, t.cursor.val, t.debounced, t.changed)) =
      some ([0xFF, 0x0F, 0xFF], 0, 0x0F, 0x03) := by decide

/-! ## Queries (L2-F) -/

theorem test_pressed_mixed : after (exec (.pressed 0xFF) (edges 0x06 0x03)) (·.result) = some (some 0x02) := by decide
theorem test_pressed_masked : after (exec (.pressed 0x80) (edges 0x81 0x81)) (·.result) = some (some 0x80) := by decide
theorem test_released_mixed : after (exec (.released 0xFF) (edges 0x06 0x03)) (·.result) = some (some 0x01) := by decide
theorem test_released_masked : after (exec (.released 0xF0) (edges 0x10 0x01)) (·.result) = some (some 0x00) := by decide
theorem test_level_whole : after (exec (.debouncedStateGet 0xFF) (edges 0x06 0x03)) (·.result) = some (some 0x06) := by
  decide
theorem test_level_masked : after (exec (.debouncedStateGet 0xF0) (edges 0x10 0x01)) (·.result) = some (some 0x10) := by
  decide

/-! ## Events -/

/-- L2-G: an edge with `rst` = 1 and `sample_valid` = 1 resets and performs no `process`. -/
theorem test_reset_edge :
    after (step ((threeAt 2).facing [edge true true 0x00])) (·.registers) =
      some (State.construction cfgThree).registers := by decide
/-- L1-2: an idle instance answers 0x00; the word comes through the table's numbering. -/
theorem test_step_from_reset : after (step (State.reset.withFetchWord 16 0x1FF)) (·.result) = some (some 0x00) := by
  decide
/-- R182: after a power-up no operation is admitted. -/
theorem test_stuck_before_reset : performAll (threeAt 0) [.powerCycle, word (.pressed 0xFF)] = .fault .beforeReset := by
  rfl
/-- R76, R77: `pressed 0x04` is the word 0x104; an immediate of 256 and a wrongly spelled name are refused. -/
theorem test_assemble : assemble ['p', 'r', 'e', 's', 's', 'e', 'd', ' ', '0', 'x', '0', '4'] = some 0x104 ∧
    assemble ['p', 'r', 'e', 's', 's', 'e', 'd', ' ', '2', '5', '6'] = none ∧
    assemble ['P', 'r', 'e', 's', 's', 'e', 'd', ' ', '4'] = none := by decide
/-- R76: a line with no immediate, with `0x` and no digit, or with a digit outside its base is refused. -/
theorem test_assemble_refuses : assemble ['p', 'r', 'e', 's', 's', 'e', 'd'] = none ∧
    assemble ['p', 'r', 'e', 's', 's', 'e', 'd', ' ', '0', 'x'] = none ∧
    assemble ['p', 'r', 'e', 's', 's', 'e', 'd', ' ', '0', 'b', '2'] = none := by decide
/-- The listing's form of an answer (L3-1 line 12). -/
theorem test_answer_comment : answerComment 0x01 = [';', ' ', '-', '>', ' ', '0', 'x', '0', '1'] := by decide

/-! ## Witnesses: the hypotheses of each statement, met together -/

theorem witness_EncodingRoundTrips : 10 ≤ 16 ∧ (Instr.released 0xFF).wellFormed = true := by decide

theorem witness_ProcessPerformsTheFiveSteps :
    (⟨3, 0x01, by decide, by decide⟩ : Config).n = 3 ∧ (⟨3, 0x01, by decide, by decide⟩ : Config).polarityMask = 0x01 := by
  decide

/-- Different masks and raw samples with the same corrected sample. -/
theorem witness_ProcessCorrectsPolarity_corrected :
    let s₁ := small cfgThree #v[0x01, 0x02, 0x03] (2 : Fin 3) 0x00 0x00
    let s₂ := small cfgPullUp #v[0x01, 0x02, 0x03] (2 : Fin 3) 0x00 0xFF
    s₁.cfg.n = s₂.cfg.n ∧ s₁.window.toList = s₂.window.toList ∧ s₁.cursor.val = s₂.cursor.val ∧
      s₁.debounced = s₂.debounced ∧ (0x5A : Byte) ^^^ s₁.cfg.polarityMask = 0xA5 ^^^ s₂.cfg.polarityMask := by decide
theorem witness_ProcessCorrectsPolarity :
    (threeAt 0).cfg.polarityMask[(7 : Channel).val] = false ∧
      (small cfgPullUp #v[0, 0, 0] (0 : Fin 3) 0 0).cfg.polarityMask[(7 : Channel).val] = true := by decide

theorem witness_ProcessOverwritesTheOldestEntry : (0 : Nat) ≠ (threeAt 2).cursor.val := by decide

theorem witness_OneEntry :  -- N = 1 in CursorAdvances…, ProcessCompares…, ProcessCornerCases
    (small cfgOne #v[0x55] (0 : Fin 1) 0x55 0x00).cfg.n = 1 ∧
      (small cfgOne #v[0x55] (0 : Fin 1) 0x55 0x00).cursor.val =
        (small cfgOne #v[0x55] (0 : Fin 1) 0x55 0x00).cfg.n - 1 := by decide

theorem witness_ProcessMarksTheEdges : isQuery (.released 0x01) = true := by decide

theorem witness_ProcessLeavesTheRestUnchanged : (2 : Nat) ≠ (threeAt 0).cursor.val := by decide

theorem witness_ProcessCornerCases_wrap : (threeAt 2).cursor.val = (threeAt 2).cfg.n - 1 := by decide
theorem witness_ProcessCornerCases_globalFlag :
    (threeAt 0).cfg.polarityMask = 0x00 ∧ (small cfgPullUp #v[0, 0, 0] (0 : Fin 3) 0 0).cfg.polarityMask = 0xFF := by
  decide

theorem witness_QueriesWriteNothing :
    isQuery (.debouncedStateGet 0xFF) = true ∧ (threeAt 0).constructed = true ∧ threeAt 0 ≠ edges 0x0C 0x00 ∧
      (threeAt 0).debounced = (edges 0x0C 0x00).debounced ∧ (threeAt 0).changed = (edges 0x0C 0x00).changed := by decide
/-- For debouncedStateGet the changed masks may differ. -/
theorem witness_QueriesWriteNothing_level :
    (threeAt 0).debounced = (edges 0x0C 0xFF).debounced ∧ (threeAt 0).changed ≠ (edges 0x0C 0xFF).changed ∧
      ((Instr.debouncedStateGet 0xFF).opcode = .pressed ∨ (Instr.debouncedStateGet 0xFF).opcode = .released →
        (threeAt 0).changed = (edges 0x0C 0xFF).changed) := by decide

theorem witness_OperationsReadAndWriteOnlyTheirState :
    let s := threeAt 0
    let t := small cfgThree #v[0x00, 0x0F, 0x3C] (0 : Fin 3) 0x0C 0xFF
    s.cfg = t.cfg ∧ s.cursor.val = t.cursor.val ∧ s.entry 1 = t.entry 1 ∧ s.entry 2 = t.entry 2 ∧
      s.entry 3 = t.entry 3 ∧ s.debounced = t.debounced ∧ s.entry 0 ≠ t.entry 0 ∧ isQuery (.pressed 0x01) = true := by decide
theorem witness_OperationsReadAndWriteOnlyTheirState_queries :
    (edges 0x81 0x81).debounced = (small cfgOne #v[0x55] (0 : Fin 1) 0x81 0x81).debounced ∧
      (edges 0x81 0x81).changed = (small cfgOne #v[0x55] (0 : Fin 1) 0x81 0x81).changed := by decide

theorem witness_MaskIsolation : isQuery (Instr.ofOpcode .pressed 0x00) = true ∧
    isQuery (Instr.ofOpcode .debouncedStateGet 0xFF) = true := by decide

/-- N-1 samples, the most the statement allows; and none. -/
theorem witness_IdleStability :
    [(0xFF : Byte), 0xFF].length < cfgThree.n ∧ ([] : List Byte).length < cfgOne.n ∧ isQuery (.pressed 0xFF) = true := by
  decide

theorem witness_EdgesStandUntilTheNextSample :
    (edges 0x81 0x81).constructed = true ∧ (∀ q ∈ [Instr.pressed 0xFF, .released 0x01], isQuery q = true) ∧
      after (exec (.process 0x3C) (threeAt 0)) (·.debounced) = some (threeAt 0).debounced := by decide

theorem witness_ConstructionChecksTheWindowSize : (1 ≤ 1 ∧ 1 ≤ 255) ∧ (1 ≤ 255 ∧ 255 ≤ 255) ∧ 255 < 256 := by decide

theorem witness_ResetWinsOverSample :
    (⟨true, true, 0x00, 0x00⟩ : PinInputs).rst = true ∧
      ((threeAt 1).facing [edge true true 0x00]).pending = [.clockEdge ⟨true, true, 0x00, 0x00⟩] := by decide

theorem witness_ClockedRealisationMatchesTheOperations :
    (threeAt 1).constructed = true ∧
      ∀ pins ∈ [(⟨false, true, 0xFF, 0x01⟩ : PinInputs), ⟨false, false, 0x00, 0xFF⟩], pins.rst = false := by decide

theorem witness_NoOperationBeforeReset_powerCycle :
    ((threeAt 1).facing [.powerCycle, word (.process 0)]).pending = .powerCycle :: [word (.process 0)] := by decide
theorem witness_NoOperationBeforeReset_word :
    ({ threeAt 1 with constructed := false } : State).constructed = false ∧
      (∀ e ∈ [edge false false 0x00, word (.pressed 0x01)], isReset e = false) ∧
      ∃ e ∈ [edge false false 0x00, word (.pressed 0x01)], asksForOperation e = true := by decide
theorem witness_NoOperationBeforeReset_edge :
    (∀ e ∈ [HostEvent.powerCycle, edge false true 0xFF], isReset e = false) ∧
      ∃ e ∈ [HostEvent.powerCycle, edge false true 0xFF], asksForOperation e = true := by decide
/-- Without an operation the run goes on and stays unconstructed. -/
theorem witness_NoOperationBeforeReset_idle :
    (∀ e ∈ [edge false false 0x00], asksForOperation e = false) ∧
      after (performAll { threeAt 1 with constructed := false } [edge false false 0x00]) (·.constructed) =
        some false := by decide

theorem witness_ResetActsLikeIdleSamples :
    (small cfgMixed #v[0xF0, 0x0F, 0x00] (1 : Fin 3) 0x00 0xFF).constructed = true ∧
      (small cfgMixed #v[0xF0, 0x0F, 0x00] (1 : Fin 3) 0x00 0xFF).debounced = 0x00 := by decide

theorem witness_StepPerformsTheDecodedOperation :
    (threeAt 0).constructed = true ∧
      ((threeAt 0).facing [.operation 0x1FF, .powerCycle]).pending = .operation 0x1FF :: [.powerCycle] := by decide

theorem witness_WithoutASampleTheStateHolds :
    (threeAt 0).pending = [] ∧ (⟨false, false, 0xFF, 0xFF⟩ : PinInputs).rst = false ∧
      (⟨false, false, 0xFF, 0xFF⟩ : PinInputs).sampleValid = false ∧
      ((threeAt 0).facing [.clockEdge ⟨false, false, 0xFF, 0xFF⟩]).pending =
        [.clockEdge ⟨false, false, 0xFF, 0xFF⟩] := by decide

theorem witness_OperationsNeverStop :
    (threeAt 0).constructed = true ∧
      ∀ e ∈ [word (.process 0xFF), edge true false 0x00, edge false true 0x01], isPowerCycle e = false := by decide

/-- A state in mid-run that meets the invariant, with a release edge in it (L3-1 line 16), and takes a step. -/
def midRun : State := small ⟨3, 0x01, by decide, by decide⟩ #v[0x00, 0x01, 0x01] (1 : Fin 3) 0x00 0x01
theorem witness_EveryStepKeepsTheInvariant : midRun.Inv := by decide
theorem witness_EveryStepKeepsTheInvariant_step :
    after (step (midRun.facing [word (.process 0x00)])) (·.cursor.val) = some 2 := by decide
/-- The invariant rules states out: the debounced state must be the AND. -/
theorem test_inv_refuses : ¬ (edges 0x01 0x00).Inv := by decide

theorem witness_RingHoldsTheLastSamples : cfgThree.n ≤ [(0x01 : Byte), 0x02, 0x03].length := by decide

theorem witness_AsymmetricFilter :
    (threeAt 2).constructed = true ∧ (threeAt 2).cfg.n ≤ [(0x01 : Byte), 0x01, 0x01].length ∧
      ((0x00 : Byte) ^^^ (threeAt 2).cfg.polarityMask)[(0 : Channel).val] = false := by decide

/-- An idle sample and then N, and N+1, active ones; all eight channels' corrected bits come from the mask. -/
theorem witness_PressLatency :
    (threeAt 1).constructed = true ∧ ((0x00 : Byte) ^^^ (threeAt 1).cfg.polarityMask)[(0 : Channel).val] = false ∧
      (∀ v ∈ [(0x01 : Byte), 0x03, 0x01, 0xFF], (v ^^^ (threeAt 1).cfg.polarityMask)[(0 : Channel).val] = true) ∧
      [(0x01 : Byte), 0x03, 0x01].length = (threeAt 1).cfg.n ∧
      (threeAt 1).cfg.n < [(0x01 : Byte), 0x03, 0x01, 0xFF].length := by decide
theorem witness_PressLatency_construction :
    (∀ v ∈ [(0x00 : Byte), 0x0E, 0x00], (v ^^^ cfgPullUp.polarityMask)[(0 : Channel).val] = true) ∧
      [(0x00 : Byte), 0x0E, 0x00].length = cfgPullUp.n := by decide

theorem witness_ImmediateRelease :
    (threeAt 0).debounced[(2 : Channel).val] = true ∧
      ((0x00 : Byte) ^^^ (threeAt 0).cfg.polarityMask)[(2 : Channel).val] = false ∧ (threeAt 0).constructed = true ∧
      [(0xFF : Byte), 0xFF].length < (threeAt 0).cfg.n := by decide

theorem witness_RepeatedSampleSettles : (threeAt 0).constructed = true := by decide

theorem witness_CounterFormSimulatesTheWindow : Instr.process 0x10 = .process 0x10 := by decide
/-- The counters of a window state: channel 0 is inactive in the newest entry, or in the oldest only; channel 2 is
active in all three. -/
theorem test_counters : (threeAt 0).counters.run[(0 : Channel).val] = 0 ∧
    (threeAt 2).counters.run[(0 : Channel).val] = 2 ∧ (threeAt 0).counters.run[(2 : Channel).val] = 3 := by
  rw [State.counters_run (threeAt 0) 0, State.counters_run (threeAt 2) 0, State.counters_run (threeAt 0) 2]; decide

/-- Two instances that differ in mask, window and registers on every channel but channel 4. -/
def laneLeft : State := small cfgThree #v[0x10, 0x1F, 0x00] (2 : Fin 3) 0x10 0x00
def laneRight : State := small cfgMixed #v[0xF0, 0x10, 0x0F] (2 : Fin 3) 0xFF 0x0F
theorem witness_ChannelsAreIndependent_states :
    laneLeft.constructed = true ∧ laneRight.constructed = true ∧ laneLeft.cfg.n = laneRight.cfg.n ∧
      laneLeft.cursor.val = laneRight.cursor.val ∧ laneLeft.lane 4 = laneRight.lane 4 ∧
      laneLeft.cfg.polarityMask[(4 : Channel).val] = laneRight.cfg.polarityMask[(4 : Channel).val] := by
  refine ⟨?_, ?_, ?_, ?_, ?_, ?_⟩ <;> decide
theorem witness_ChannelsAreIndependent_inputs :
    (∀ v ∈ [((0x10 : Byte), (0xFF : Byte)), (0x0F, 0x20)], v.1[(4 : Channel).val] = v.2[(4 : Channel).val]) ∧
      isQuery (Instr.ofOpcode .pressed 0x10) = true ∧
      (0x10 : Byte)[(4 : Channel).val] = (0x30 : Byte)[(4 : Channel).val] := by
  refine ⟨?_, rfl, by decide⟩
  intro v hv
  rcases List.mem_pair.mp hv with rfl | rfl <;> decide

theorem witness_QueriesDoNotDisturbTheSamples :
    (threeAt 1).constructed = true ∧ isQuery (.pressed 0x01) = true := by decide

/-- The same ring from two starting points. -/
theorem witness_TheCursorIsHidden :
    let s₁ := small cfgThree #v[0x01, 0x03, 0x07] (0 : Fin 3) 0x01 0x00
    let s₂ := small cfgThree #v[0x07, 0x01, 0x03] (1 : Fin 3) 0x01 0x00
    s₁.constructed = true ∧ s₂.constructed = true ∧ s₁.cfg = s₂.cfg ∧ s₁.oldestFirst = s₂.oldestFirst ∧
      s₁.debounced = s₂.debounced ∧ s₁.changed = s₂.changed ∧ s₁.cursor.val ≠ s₂.cursor.val := by decide

/-- An immediate at each side of the limit, and a name that is not in the list (R77 has no pseudo-instructions). -/
theorem witness_AssemblerFollowsTheListing :
    readImmediate ['2', '5', '5'] = some 255 ∧
      readImmediate ['0', 'b', '1', '0', '0', '0', '0', '0', '0', '0', '0'] = some 256 := by decide
theorem witness_AssemblerFollowsTheListing_name :
    (∀ c ∈ ['n', 'o', 'p'], c ≠ ' ') ∧ ∀ opcode : Opcode, ['n', 'o', 'p'] ≠ spelling opcode := by
  constructor
  · simp
  · intro opcode; cases opcode <;> decide

/-- Both sides of the second equivalence, with a hexadecimal letter in each case. -/
theorem witness_AssemblerAcceptsOnlyTheSyntax :
    readImmediate ['0', 'x', 'a', 'F'] = some 175 ∧
      ['a', 'F'].map Char.toLower = [10, 15].map Nat.digitChar ∧ 175 = Nat.ofDigits 16 [10, 15].reverse := by
  refine ⟨by decide, by decide, by norm_num [Nat.ofDigits]⟩

end Sys2Proof.Tests
end

section
/-! What each operation reads and writes (spec/20_memory.md R54): which two states `process` and a query cannot tell
apart, and that a query writes nothing. -/

namespace Sys2Proof.Machine

open Sys2Proof

/-! ## What process reads -/

section ProcessReads

variable {s₁ s₂ : State} (raw : Byte)

/-- The window after `process` does not depend on the entry the sample replaces: of the window `process` reads only
what its own write leaves (R54). -/
theorem processed_window_congr (hcfg : s₁.cfg = s₂.cfg) (hcursor : s₁.cursor.val = s₂.cursor.val)
    (hentries : ∀ i : Nat, i ≠ s₁.cursor.val → s₁.entry i = s₂.entry i) :
    (processed raw s₁).window.toList = (processed raw s₂).window.toList := by
  have hentry (i : Nat) : (processed raw s₁).entry i = (processed raw s₂).entry i := by
    by_cases hi : i = s₁.cursor.val
    · calc (processed raw s₁).entry i
        _ = some (correctSample s₁.cfg raw) := hi ▸ processed_entry_self raw s₁
        _ = some (correctSample s₂.cfg raw) := by rw [hcfg]
        _ = (processed raw s₂).entry i := (hi.trans hcursor ▸ processed_entry_self raw s₂).symm
    · calc (processed raw s₁).entry i
        _ = s₁.entry i := processed_entry_other raw s₁ hi
        _ = s₂.entry i := hentries i hi
        _ = (processed raw s₂).entry i := (processed_entry_other raw s₂ (hcursor ▸ hi)).symm
  exact List.ext_getElem? hentry

theorem processed_cursor_congr (hcfg : s₁.cfg = s₂.cfg) (hcursor : s₁.cursor.val = s₂.cursor.val) :
    (processed raw s₁).cursor.val = (processed raw s₂).cursor.val := by
  rw [processed_cursor, processed_cursor, hcursor, hcfg]

/-- The new debounced state is a function of the new window alone (R106). -/
theorem processed_debounced_congr
    (hwindow : (processed raw s₁).window.toList = (processed raw s₂).window.toList) :
    (processed raw s₁).debounced = (processed raw s₂).debounced := by
  rw [processed_debounced, processed_debounced, hwindow]

/-- Of the old flags the new `CHANGED` depends on `DEBOUNCED_STATE` only (R108). -/
theorem processed_changed_congr
    (hnew : (processed raw s₁).debounced = (processed raw s₂).debounced) (hold : s₁.debounced = s₂.debounced) :
    (processed raw s₁).changed = (processed raw s₂).changed := by
  rw [processed_changed, processed_changed, hnew, hold]

end ProcessReads

/-! ## What a query reads and writes -/

@[simp] theorem answer_registers (s : State) (value : Byte) : (answer s value).registers = s.registers := rfl

/-- A query answers the same again: its first answer is nothing it reads (R54). -/
theorem exec_query_answer {q : Instr} (hq : isQuery q = true) (s : State) (value : Byte) :
    exec q (answer s value) = .next (answer s (queryAnswer q s.debounced s.changed)) :=
  exec_query hq (answer s value)

/-- Two states with the same value for a query give the same answer to it. -/
theorem exec_query_result_congr {q : Instr} (hq : isQuery q = true) {s₁ s₂ : State}
    (hvalue : queryAnswer q s₁.debounced s₁.changed = queryAnswer q s₂.debounced s₂.changed) :
    ∃ t₁ t₂ : State, exec q s₁ = .next t₁ ∧ exec q s₂ = .next t₂ ∧ t₁.result = t₂.result :=
  ⟨_, _, exec_query hq s₁, exec_query hq s₂, by rw [answer_result, answer_result, hvalue]⟩

/-- `debouncedStateGet` does not read `CHANGED` (R54, R133). -/
theorem queryAnswer_debouncedStateGet (m debounced changed : Byte) :
    queryAnswer (.debouncedStateGet m) debounced changed = m &&& debounced := rfl

/-! ## The obligation -/

/-- Settles O15: after `process` the two windows agree entry by entry, at the cursor because both hold the corrected
sample and elsewhere because both keep theirs, and the other registers follow from the window; the queries are
functions of `DEBOUNCED_STATE` and `CHANGED` that write only the answer. -/
theorem operationsReadAndWriteOnlyTheirState : Obligations.OperationsReadAndWriteOnlyTheirState := by
  refine ⟨fun s₁ s₂ raw hcfg hcursor hentries hdebounced => ?processReads, fun s raw => ?processWrites,
    fun s₁ s₂ m hdebounced => ?queriesRead, fun s q hq => ?queriesWriteNothing⟩
  case processReads =>
    have hwindow := processed_window_congr raw hcfg hcursor hentries
    have hnew := processed_debounced_congr raw hwindow
    exact ⟨_, _, rfl, rfl, hwindow, processed_cursor_congr raw hcfg hcursor, hnew,
      processed_changed_congr raw hnew hdebounced⟩
  case processWrites =>
    exact ⟨_, rfl, processed_cfg raw s, processed_constructed raw s, processed_entry_self raw s,
      fun _ hj => processed_entry_other raw s hj⟩
  case queriesRead =>
    have hmasked : queryAnswer (.debouncedStateGet m) s₁.debounced s₁.changed =
        queryAnswer (.debouncedStateGet m) s₂.debounced s₂.changed := by
      rw [queryAnswer_debouncedStateGet, queryAnswer_debouncedStateGet, hdebounced]
    obtain ⟨g₁, g₂, hg₁, hg₂, hlevel⟩ := exec_query_result_congr rfl hmasked
    refine ⟨g₁, g₂, hg₁, hg₂, hlevel, fun hchanged => ?_⟩
    have hvalue (q : Instr) : queryAnswer q s₁.debounced s₁.changed = queryAnswer q s₂.debounced s₂.changed := by
      rw [hdebounced, hchanged]
    obtain ⟨p₁, p₂, hp₁, hp₂, hpressed⟩ := exec_query_result_congr (q := .pressed m) rfl (hvalue _)
    obtain ⟨r₁, r₂, hr₁, hr₂, hreleased⟩ := exec_query_result_congr (q := .released m) rfl (hvalue _)
    exact ⟨p₁, p₂, r₁, r₂, hp₁, hp₂, hpressed, hr₁, hr₂, hreleased⟩
  case queriesWriteNothing =>
    exact ⟨_, exec_query hq s, answer_registers s _, exec_query_answer hq s _⟩

end Sys2Proof.Machine
end

section
/-! The data field of an operation word (spec/30_encoding.md R72): it reaches the operation unchanged, and every
value of it is an operand of every operation. -/

namespace Sys2Proof

/-- The data field is the word's number below its opcode (R71). -/
theorem dataField_toNat (word : OpWord) : (dataField word).toNat = word.toNat % 256 := by
  rw [dataField, BitVec.extractLsb'_toNat, Nat.shiftRight_zero]

@[simp] theorem Instr.operand_ofOpcode (opcode : Opcode) (v : Byte) : (Instr.ofOpcode opcode v).operand = v := by
  cases opcode <;> rfl

@[simp] theorem Instr.wellFormed_eq_true (i : Instr) : i.wellFormed = true := by
  cases i <;> rfl

/-- The decoder passes the data field on unchanged, whatever the opcode (R72). -/
@[simp] theorem operand_decode (word : OpWord) : (decode word).operand = dataField word :=
  Instr.operand_ofOpcode _ _

@[simp] theorem decode_encode (i : Instr) : decode (encode i) = i :=
  match i with
  | .process v => Laws.RoundTrip.process v
  | .pressed m => Laws.RoundTrip.pressed m
  | .released m => Laws.RoundTrip.released m
  | .debouncedStateGet m => Laws.RoundTrip.debouncedStateGet m

/-- Settles O2: the decoder hands the data field on as the operand, and the word that carries a value to an
operation is that operation's encoding. -/
theorem dataFieldIsTheOperandUnchanged : Obligations.DataFieldIsTheOperandUnchanged := by
  refine ⟨fun word => ⟨?operandIsLowByte, Instr.wellFormed_eq_true _⟩,
    fun opcode v => ⟨encode (Instr.ofOpcode opcode v), decode_encode _, ?operandReached⟩⟩
  case operandIsLowByte => rw [operand_decode, dataField_toNat]
  case operandReached => rw [decode_encode, Instr.operand_ofOpcode]

end Sys2Proof
end

section
/-! `process` (spec/40_process.md R101-R109): the corrected sample through which alone it sees the raw sample, the
ring entry it replaces, the whole-window comparison and the edges it marks. -/

namespace Sys2Proof.Machine

open Sys2Proof

/-! ## The corrected sample (R101) -/

theorem correctSample_channel_of_activeHigh {cfg : Config} {c : Channel} (raw : Byte)
    (h : cfg.polarityMask[c.val] = false) : (correctSample cfg raw)[c.val] = raw[c.val] := by
  rw [correctSample_channel, h, Bool.xor_false]

theorem correctSample_channel_of_activeLow {cfg : Config} {c : Channel} (raw : Byte)
    (h : cfg.polarityMask[c.val] = true) : (correctSample cfg raw)[c.val] = !raw[c.val] := by
  rw [correctSample_channel, h, Bool.xor_true]

/-- Settles O6: what `process` stores is the corrected sample; the cursor moves on whatever the sample, and the flags
are functions of the new window and the old debounced state. -/
theorem processCorrectsPolarity : Obligations.ProcessCorrectsPolarity := by
  refine ⟨fun s raw => ?stored, fun s₁ s₂ raw₁ raw₂ hn hwindow hcursor hold hcorrected => ?sameCorrected⟩
  case stored =>
    exact ⟨processed raw s, correctSample s.cfg raw, rfl, rfl,
      fun c => ⟨correctSample_channel_of_activeHigh raw, correctSample_channel_of_activeLow raw⟩,
      processed_window raw s⟩
  case sameCorrected =>
    have hsample : correctSample s₁.cfg raw₁ = correctSample s₂.cfg raw₂ := hcorrected
    have hwindow' : (processed raw₁ s₁).window.toList = (processed raw₂ s₂).window.toList := by
      rw [processed_window, processed_window, hwindow, hcursor, hsample]
    have hcursor' : (processed raw₁ s₁).cursor.val = (processed raw₂ s₂).cursor.val := by
      rw [processed_cursor, processed_cursor, hcursor, hn]
    have hnew : (processed raw₁ s₁).debounced = (processed raw₂ s₂).debounced := by
      rw [processed_debounced, processed_debounced, hwindow']
    have hchanged : (processed raw₁ s₁).changed = (processed raw₂ s₂).changed := by
      rw [processed_changed, processed_changed, hnew, hold]
    exact ⟨_, _, rfl, rfl, hwindow', hcursor', hnew, hchanged⟩

/-! ## The entry at the cursor (R103) -/

/-- The entry at the cursor is the oldest of the ring (R21). -/
theorem oldestFirst_head? (s : State) : s.oldestFirst.head? = s.entry s.cursor.val := by
  have hne : s.window.toList.drop s.cursor.val ≠ [] := by simp
  rw [State.oldestFirst, List.head?_append_of_ne_nil _ hne, List.head?_drop, State.entry]

/-- Settles O7: the write at the cursor, its frame, and one turn of the ring. -/
theorem processOverwritesTheOldestEntry : Obligations.ProcessOverwritesTheOldestEntry := fun s raw =>
  ⟨processed raw s, rfl, processed_entry_self raw s, fun _ hi => processed_entry_other raw s hi,
    oldestFirst_head? s, processed_oldestFirst raw s⟩

/-! ## The comparison (R106) -/

@[simp] theorem andAll_singleton (b : Byte) : andAll [b] = b :=
  byte_eq_of_channels fun c => by simp

/-- A channel of the AND of the window, read entry by entry. -/
theorem andAll_window_channel_iff (s : State) (c : Channel) :
    (andAll s.window.toList)[c.val] = true ↔
      ∀ i : Nat, i < s.cfg.n → ∃ e : Byte, s.entry i = some e ∧ e[c.val] = true := by
  rw [andAll_channel, List.all_eq_true]
  constructor
  · intro hall i hi
    have hlen : i < s.window.toList.length := by rwa [window_length]
    exact ⟨_, List.getElem?_eq_getElem hlen, hall _ (List.getElem_mem hlen)⟩
  · intro hentries e he
    obtain ⟨i, hi, rfl⟩ := List.getElem_of_mem he
    obtain ⟨e', hentry, hset⟩ := hentries i (by rwa [window_length] at hi)
    rw [State.entry, List.getElem?_eq_getElem hi] at hentry
    rwa [Option.some.inj hentry]

/-- With one entry the sample just stored is the whole window (R106). -/
theorem processed_debounced_of_one {s : State} (raw : Byte) (h : s.cfg.n = 1) :
    (processed raw s).debounced = correctSample s.cfg raw := by
  have htail : s.oldestFirst.tail = [] := List.eq_nil_of_length_eq_zero (by simp [h])
  rw [processed_debounced_ring, htail, List.nil_append, andAll_singleton]

/-- Settles O9: the new state is the AND of the window after the write, which is read entry by entry. -/
theorem processComparesTheWholeWindow : Obligations.ProcessComparesTheWholeWindow := fun s raw =>
  ⟨processed raw s, rfl, processed_entry_self raw s, andAll_window_channel_iff (processed raw s),
    processed_debounced_of_one raw, processed_debounced raw s, processed_changed raw s⟩

/-! ## The edges (R108) -/

/-- A channel of `CHANGED`: set exactly when the debounced bit flipped. -/
theorem processed_changed_channel (raw : Byte) (s : State) (c : Channel) :
    (processed raw s).changed[c.val] = ((processed raw s).debounced[c.val] ^^ s.debounced[c.val]) := by
  rw [processed_changed, BitVec.getElem_xor]

/-- `process` does not read the `CHANGED` it overwrites. -/
theorem processed_of_changed (raw : Byte) (s : State) (held : Byte) :
    processed raw { s with changed := held } = processed raw s := rfl

/-- A query leaves `CHANGED`. -/
theorem exec_query_keeps_changed {q : Instr} (hq : isQuery q = true) (s : State) :
    ∃ u : State, exec q s = .next u ∧ u.changed = s.changed :=
  ⟨_, exec_query hq s, answer_changed s _⟩

/-- Of the flipped channels, the active ones were inactive before: the press edges. -/
theorem flipped_and_new (m new old : Byte) : m &&& ((new ^^^ old) &&& new) = m &&& new &&& ~~~old :=
  byte_eq_of_channels fun c => by
    simp only [BitVec.getElem_and, BitVec.getElem_xor, BitVec.getElem_not]
    cases new[c.val] <;> simp

/-- Of the flipped channels, the inactive ones were active before: the release edges. -/
theorem flipped_and_not_new (m new old : Byte) : m &&& ((new ^^^ old) &&& ~~~new) = m &&& ~~~new &&& old :=
  byte_eq_of_channels fun c => by
    simp only [BitVec.getElem_and, BitVec.getElem_xor, BitVec.getElem_not]
    cases new[c.val] <;> simp

/-- Settles O10: `CHANGED` is the XOR of the new state with the old, so per channel it says which way the bit
flipped, and the two edge queries select those halves of it. -/
theorem processMarksTheEdges : Obligations.ProcessMarksTheEdges := by
  intro s raw
  refine ⟨processed raw s, rfl, processed_changed raw s, fun c => ?edgesPerChannel, fun held => ?overwritten,
    fun q hq => exec_query_keeps_changed hq _, fun m => ⟨_, _, rfl, rfl, ?presses, ?releases⟩⟩
  case edgesPerChannel =>
    rw [processed_changed_channel]
    cases (processed raw s).debounced[c.val] <;> cases s.debounced[c.val] <;> decide
  case overwritten => exact congrArg Host.Outcome.next (processed_of_changed raw s held)
  case presses => exact congrArg some (flipped_and_new m (processed raw s).debounced s.debounced)
  case releases => exact congrArg some (flipped_and_not_new m (processed raw s).debounced s.debounced)

end Sys2Proof.Machine
end

section
/-! The asymmetric filter (spec/40_process.md R107): a channel becomes active only on `N` agreeing samples, and one
inactive sample ends it. -/

namespace Sys2Proof.Machine

open Sys2Proof

/-- After `N` or more samples no old entry is left: the ring is the last `N` corrected samples (R105). -/
theorem ingested_oldestFirst_of_full {s : State} {vs : List Byte} (h : s.cfg.n ≤ vs.length) :
    (ingested s vs).oldestFirst = (vs.drop (vs.length - s.cfg.n)).map (correctSample s.cfg) := by
  have hold : s.oldestFirst.drop vs.length = [] := List.drop_eq_nil_of_le (by rwa [oldestFirst_length])
  rw [ingested_oldestFirst, List.drop_append, hold, List.nil_append, oldestFirst_length, List.map_drop]

/-- After `N` or more samples the debounced state is the AND of the last `N` corrected ones, whatever the window held
before (R30, R106). -/
theorem ingested_debounced_of_full {s : State} {vs : List Byte} (h : s.cfg.n ≤ vs.length) :
    (ingested s vs).debounced = andAll ((vs.drop (vs.length - s.cfg.n)).map (correctSample s.cfg)) := by
  have hne : vs ≠ [] := List.ne_nil_of_length_pos (Nat.lt_of_lt_of_le s.cfg.n_pos h)
  rw [ingested_debounced s hne, ingested_oldestFirst_of_full h]

/-- A channel of the AND of corrected samples is set exactly when it is set in each of them. -/
theorem andAll_correctSample_channel_iff (cfg : Config) (vs : List Byte) (c : Channel) :
    (andAll (vs.map (correctSample cfg)))[c.val] = true ↔ ∀ v ∈ vs, (correctSample cfg v)[c.val] = true := by
  rw [andAll_channel, List.all_map, List.all_eq_true]; rfl

/-- One inactive sample makes its channel inactive, since it takes part in the AND itself (R107). -/
theorem processed_debounced_of_inactive {s : State} {raw : Byte} {c : Channel}
    (h : (correctSample s.cfg raw)[c.val] = false) : (processed raw s).debounced[c.val] = false := by
  rw [processed_debounced_ring, andAll_channel, List.all_append, List.all_cons, h, Bool.false_and, Bool.and_false]

/-- Settles O33: after `N` samples the ring holds exactly those, and its AND is the new state; and an inactive sample
is itself one of the entries. -/
theorem asymmetricFilter : Obligations.AsymmetricFilter := by
  refine fun s => ⟨fun samples hconstructed hfull => ⟨_, performAll_samples samples hconstructed, fun c => ?_⟩,
    fun raw => ⟨processed raw s, rfl, fun c => processed_debounced_of_inactive⟩⟩
  rw [State.facing_debounced, ingested_debounced_of_full hfull]
  exact andAll_correctSample_channel_iff s.cfg _ c

end Sys2Proof.Machine
end

section
/-! The queries (spec/41_queries.md R130): what each reads, the mask its answer stays within, and the query issued
after a run. -/

namespace Sys2Proof.Machine

open Sys2Proof

/-- What a mask selects has no channel outside the mask. -/
theorem and_and_not_mask (m value : Byte) : m &&& value &&& ~~~m = 0 :=
  byte_eq_of_channels fun c => by
    simp only [BitVec.getElem_and, BitVec.getElem_not]
    cases m[c.val] <;> simp

/-- A query's answer is 0 outside its mask (R130). -/
theorem queryAnswer_within_mask {q : Instr} (hq : isQuery q = true) (debounced changed : Byte) :
    queryAnswer q debounced changed &&& ~~~q.operand = 0 := by
  cases q with
  | process v => cases hq
  | pressed m => exact and_and_not_mask m (changed &&& debounced)
  | released m => exact and_and_not_mask m (changed &&& ~~~debounced)
  | debouncedStateGet m => exact and_and_not_mask m debounced

/-- Only `pressed` and `released` read `CHANGED` (R130). -/
theorem queryAnswer_changed_congr {q : Instr} (hq : isQuery q = true) (debounced : Byte) {changed₁ changed₂ : Byte}
    (h : q.opcode = .pressed ∨ q.opcode = .released → changed₁ = changed₂) :
    queryAnswer q debounced changed₁ = queryAnswer q debounced changed₂ := by
  cases q with
  | process v => cases hq
  | pressed m => rw [h (.inl rfl)]
  | released m => rw [h (.inr rfl)]
  | debouncedStateGet m => rw [queryAnswer_debouncedStateGet, queryAnswer_debouncedStateGet]

/-- A query issued after a run that leaves the instance constructed is performed in the state the run leaves. -/
theorem performAll_concat_query {q : Instr} (hq : isQuery q = true) {s u : State} {es : List HostEvent}
    (hrun : performAll s es = .next u) (hconstructed : u.constructed = true) (hpending : u.pending = []) :
    performAll s (es ++ [operationEvent q]) = .next (answer u (queryAnswer q u.debounced u.changed)) := by
  have hevent : performEvent (operationEvent q) u = .next (answer u (queryAnswer q u.debounced u.changed)) :=
    (performEvent_operation q hconstructed).trans (exec_query hq u)
  rw [performAll_append, hrun, andThen_next, performAll_cons_of_next hevent, performAll_nil, ← hpending]
  rfl

/-- Settles O14: a query only answers, so it repeats, and its answer is a function of the mask, `DEBOUNCED_STATE`
and, for the two edge queries, `CHANGED`; after samples it is performed in the state they leave. -/
theorem queriesWriteNothing : Obligations.QueriesWriteNothing := by
  refine fun q hq => ⟨fun s => ⟨_, _, exec_query hq s, rfl, answer_registers s _, queryAnswer_within_mask hq _ _,
    exec_query_answer hq s _⟩, fun s₁ s₂ hdebounced hchanged => exec_query_result_congr hq ?sameValue,
    fun s samples hconstructed => ?afterSamples⟩
  case sameValue => rw [hdebounced, queryAnswer_changed_congr hq s₂.debounced hchanged]
  case afterSamples =>
    have hrun := performAll_samples samples hconstructed
    have hleft : ((ingested s samples).facing []).constructed = true :=
      (ingested_constructed s samples).trans hconstructed
    exact ⟨_, _, hrun, performAll_concat_query hq hrun hleft rfl, exec_query hq _⟩

end Sys2Proof.Machine
end

section
/-! No stop (spec/60_exceptions.md R150): operations are total, the decoder covers every 10-bit word, and a
constructed instance stays constructed as long as it has power. -/

namespace Sys2Proof.Machine

open Sys2Proof

/-- The number of a 10-bit word stands for that word itself (R71). -/
@[simp] theorem tableWord_toNat (word : OpWord) : tableWord 10 word.toNat = word := by
  rw [tableWord, Nat.mod_eq_of_lt word.isLt, BitVec.ofNat_toNat, BitVec.setWidth_eq]

/-- Every operation completes, and neither constructs the instance nor undoes its construction (R150). -/
theorem exec_total (i : Instr) (s : State) :
    ∃ t : State, exec i s = .next t ∧ t.constructed = s.constructed := by
  rcases exec_cases i s with ⟨v, _, hprocess⟩ | ⟨_, hquery⟩
  · exact ⟨_, hprocess, processed_constructed v s⟩
  · exact ⟨_, hquery, answer_constructed s _⟩

/-- On a constructed instance a clock edge is a reset, one `process` or nothing, and the instance stays
constructed (R79). -/
theorem clockEdge_total (pins : PinInputs) {s : State} (h : s.constructed = true) :
    ∃ t : State, clockEdge pins s = .next t ∧ t.constructed = true := by
  unfold clockEdge
  split
  case isTrue => exact ⟨_, rfl, reconstruct_constructed s⟩
  case isFalse =>
    split
    case isTrue => exact ⟨_, whenConstructed_of_true h, h⟩
    case isFalse => exact ⟨s, rfl, h⟩

/-- A constructed instance completes every event but a loss of power, and stays constructed. -/
theorem performEvent_total {e : HostEvent} (he : isPowerCycle e = false) {s : State} (h : s.constructed = true) :
    ∃ t : State, performEvent e s = .next t ∧ t.constructed = true := by
  cases e with
  | operation word =>
    obtain ⟨t, hexec, hkept⟩ := exec_total (decode word) s
    exact ⟨t, (whenConstructed_of_true h).trans hexec, hkept.trans h⟩
  | clockEdge pins => exact clockEdge_total pins h
  | powerCycle => cases he

/-- A constructed instance completes every run without a loss of power, and stays constructed. -/
theorem performAll_total {es : List HostEvent} (hes : ∀ e ∈ es, isPowerCycle e = false) {s : State}
    (h : s.constructed = true) : ∃ t : State, performAll s es = .next t ∧ t.constructed = true := by
  induction es generalizing s with
  | nil => exact ⟨_, performAll_nil s, h⟩
  | cons e es ih =>
    obtain ⟨he, hes⟩ := List.forall_mem_cons.mp hes
    obtain ⟨t, hevent, ht⟩ := performEvent_total he h
    rw [performAll_cons_of_next hevent]
    exact ih hes ht

/-- Settles O28: every operation completes, a word's number decodes as the word itself, and being constructed is
kept along every run without a loss of power, by induction over its events. -/
theorem operationsNeverStop : Obligations.OperationsNeverStop := by
  refine ⟨fun i s => ?total, fun word => ?decodes, fun s events h hevents => performAll_total hevents h⟩
  case total =>
    obtain ⟨t, hexec, _⟩ := exec_total i s
    exact ⟨t, hexec⟩
  case decodes => rw [decodeTableWord, tableWord_toNat]

end Sys2Proof.Machine
end

section
/-! Encoding (spec/30_encoding.md R71-R76): `op` and `data` are the two halves of a word, and the opcode map of R73
reads off the first of them. -/

namespace Sys2Proof

/-- Of the 10 bits of a word a wider table row loses none (R71; log 5). -/
theorem tableWord_of_le {nbits : Nat} (h : 10 ≤ nbits) (word : OpWord) : tableWord nbits word.toNat = word := by
  have hlt : word.toNat < 2 ^ nbits := Nat.lt_of_lt_of_le word.isLt (Nat.pow_le_pow_right (by decide) h)
  rw [tableWord, Nat.mod_eq_of_lt hlt, BitVec.ofNat_toNat, BitVec.setWidth_eq]

/-- A word is its two fields (R71). -/
theorem opField_append_dataField (word : OpWord) : opField word ++ dataField word = word :=
  (BitVec.extractLsb'_append_extractLsb'_eq_extractLsb' rfl).trans BitVec.extractLsb'_eq_self

@[simp] theorem bits_opcodeOf (op : BitVec 2) : (opcodeOf op).bits = op := by
  revert op; decide

@[simp] theorem opcodeOf_bits (opcode : Opcode) : opcodeOf opcode.bits = opcode := by
  cases opcode <;> rfl

@[simp] theorem Instr.opcode_ofOpcode (opcode : Opcode) (v : Byte) : (Instr.ofOpcode opcode v).opcode = opcode := by
  cases opcode <;> rfl

/-- No two words decode to the same operation (R73). -/
theorem encode_decode (word : OpWord) : encode (decode word) = word := by
  rw [encode, operand_decode, decode, Instr.opcode_ofOpcode, bits_opcodeOf, opField_append_dataField]

/-- Settles O4: the decoder takes the word apart into its two fields and the encoder puts them together, each field
being read and written one to one. -/
theorem encodingRoundTrips : Obligations.EncodingRoundTrips := by
  refine ⟨fun i nbits h => ?tableRow, fun i _ => decode_encode i, encode_decode⟩
  case tableRow => rw [decodeTableWord, tableWord_of_le h, decode_encode]

/-- Settles O1: eight words, each evaluated. -/
theorem listedWordsDecode : Obligations.ListedWordsDecode := by
  unfold Obligations.ListedWordsDecode; decide

/-! ## The opcode map -/

/-- The row of an opcode: `op` fixed, `data` free. -/
def Opcode.row (opcode : Opcode) : OpcodeRow :=
  ⟨opcode, opcode.bits ++ 0#8, 0x300⟩

theorem mem_opcodeRows_iff {row : OpcodeRow} : row ∈ opcodeRows ↔ ∃ opcode : Opcode, row = opcode.row := by
  have hrows : opcodeRows = [Opcode.process, .pressed, .released, .debouncedStateGet].map Opcode.row := by decide
  rw [hrows, List.mem_map]
  exact ⟨fun ⟨opcode, _, h⟩ => ⟨opcode, h.symm⟩, fun ⟨opcode, h⟩ => ⟨opcode, by cases opcode <;> simp, h.symm⟩⟩

/-- The rows' common mask keeps `op` and clears `data`. -/
theorem and_row_mask (word : OpWord) (opcode : Opcode) : word &&& opcode.row.mask = opField word ++ 0#8 := by
  have hmask : opcode.row.mask = BitVec.allOnes 2 ++ 0#8 := by cases opcode <;> rfl
  conv => lhs; rw [← opField_append_dataField word]
  rw [hmask, BitVec.and_append, BitVec.and_allOnes, BitVec.and_zero]

/-- A word selects the row of its own `op` and no other (R73). -/
theorem and_row_mask_eq_fixed_iff (word : OpWord) (opcode : Opcode) :
    word &&& opcode.row.mask = opcode.row.fixed ↔ opcode = opcodeOf (opField word) := by
  rw [and_row_mask, Opcode.row, BitVec.append_left_inj]
  exact ⟨fun h => by rw [h, opcodeOf_bits], fun h => by rw [h, bits_opcodeOf]⟩

/-- Settles O3: the row is that of the opcode the decoder reads, and the rows' `op` bits tell them apart. -/
theorem exactlyOneRowMatchesAndDecodingFollowsIt : Obligations.ExactlyOneRowMatchesAndDecodingFollowsIt := by
  intro word
  refine ⟨(opcodeOf (opField word)).row, mem_opcodeRows_iff.mpr ⟨_, rfl⟩, (and_row_mask_eq_fixed_iff word _).mpr rfl,
    rfl, fun other hother hselects => ?onlyRow⟩
  case onlyRow =>
    obtain ⟨opcode, rfl⟩ := mem_opcodeRows_iff.mp hother
    rw [(and_row_mask_eq_fixed_iff word opcode).mp hselects]

/-- An operation's word: its opcode's fixed bits with the operand in the low byte (R71, R73). -/
theorem encode_ofOpcode {opcode : Opcode} {fixed : OpWord} (h : opcode.row.fixed = fixed) (v : Byte) :
    encode (Instr.ofOpcode opcode v) = fixed ||| v.setWidth 10 := by
  have hoperand : v.setWidth 10 = 0#2 ++ v := BitVec.setWidth_eq_append (by decide)
  rw [← h, hoperand, Opcode.row, BitVec.or_append, BitVec.or_zero, BitVec.zero_or, encode, Instr.opcode_ofOpcode,
    Instr.operand_ofOpcode]

end Sys2Proof
end

section
/-! Two runs side by side (spec/20_memory.md R56): one simulation lemma over lists of events, and from it what queries,
clock edges, the cursor's position and the other channels leave unseen. -/

namespace Sys2Proof.Machine

open Sys2Proof

/-! ## Simulation over runs -/

/-- A run that completes has performed all its events. -/
theorem performAll_pending {s t : State} {es : List HostEvent} (h : performAll s es = .next t) : t.pending = [] := by
  induction es generalizing s with
  | nil => cases h; rfl
  | cons e es ih =>
    rw [performAll_cons] at h
    cases hevent : performEvent e (s.facing es) with
    | next u => rw [hevent, andThen_next] at h; exact ih h
    | fault r => rw [hevent] at h; cases h
    | refused r => rw [hevent] at h; cases h

section Simulation

variable {ι : Type} {R : State → State → Prop} {e₁ e₂ : ι → HostEvent} {xs : List ι} {s₁ s₂ : State}

/-- A relation kept by every event that both runs perform, and by every event that only the first performs, holds
between the ends of the two runs. -/
theorem performAll_simulation (p : ι → Bool)
    (hfacing : ∀ {s₁ s₂ : State}, R s₁ s₂ → R (s₁.facing []) (s₂.facing []))
    (hboth : ∀ x ∈ xs, p x = true → ∀ {s₁ s₂ : State}, R s₁ s₂ → ∃ t₁ t₂ : State,
      performEvent (e₁ x) s₁ = .next t₁ ∧ performEvent (e₂ x) s₂ = .next t₂ ∧ R t₁ t₂)
    (hfirst : ∀ x ∈ xs, p x = false → ∀ {s₁ s₂ : State}, R s₁ s₂ → ∃ t₁ : State,
      performEvent (e₁ x) s₁ = .next t₁ ∧ R t₁ s₂)
    (h : R s₁ s₂) : ∃ t₁ t₂ : State,
      performAll s₁ (xs.map e₁) = .next t₁ ∧ performAll s₂ ((xs.filter p).map e₂) = .next t₂ ∧ R t₁ t₂ := by
  induction xs generalizing s₁ s₂ with
  | nil => exact ⟨_, _, performAll_nil s₁, performAll_nil s₂, hfacing h⟩
  | cons x xs ih =>
    have hrest {t₁ t₂ : State} (ht : R t₁ t₂) :=
      ih (fun y hy => hboth y (.tail x hy)) (fun y hy => hfirst y (.tail x hy)) ht
    rw [List.map_cons]
    cases hp : p x with
    | true =>
      obtain ⟨t₁, t₂, h₁, h₂, ht⟩ := hboth x (.head xs) hp h
      rw [List.filter_cons_of_pos hp, List.map_cons, performAll_cons_of_next h₁, performAll_cons_of_next h₂]
      exact hrest ht
    | false =>
      obtain ⟨t₁, h₁, ht⟩ := hfirst x (.head xs) hp h
      rw [List.filter_cons_of_neg (by simp [hp]), performAll_cons_of_next h₁]
      exact hrest ht

/-- The simulation when both runs perform every event. -/
theorem performAll_lockstep
    (hfacing : ∀ {s₁ s₂ : State}, R s₁ s₂ → R (s₁.facing []) (s₂.facing []))
    (hboth : ∀ x ∈ xs, ∀ {s₁ s₂ : State}, R s₁ s₂ → ∃ t₁ t₂ : State,
      performEvent (e₁ x) s₁ = .next t₁ ∧ performEvent (e₂ x) s₂ = .next t₂ ∧ R t₁ t₂)
    (h : R s₁ s₂) : ∃ t₁ t₂ : State,
      performAll s₁ (xs.map e₁) = .next t₁ ∧ performAll s₂ (xs.map e₂) = .next t₂ ∧ R t₁ t₂ := by
  have hall := performAll_simulation (fun _ => true) hfacing (fun x hx _ => hboth x hx) (fun _ _ => nofun) h
  rwa [List.filter_true] at hall

end Simulation

/-! ## Equal registers (R20, R54) -/

/-- Two constructed states with the same registers: only the host's side may differ. -/
structure SameRegisters (s₁ s₂ : State) : Prop where
  constructed_left : s₁.constructed = true
  registers : s₁.registers = s₂.registers

theorem SameRegisters.refl {s : State} (h : s.constructed = true) : SameRegisters s s := ⟨h, rfl⟩

section SameRegisters

variable {s₁ s₂ : State} (h : SameRegisters s₁ s₂)
include h

theorem SameRegisters.debounced : s₁.debounced = s₂.debounced := congrArg Registers.debounced h.registers

theorem SameRegisters.changed : s₁.changed = s₂.changed := congrArg Registers.changed h.registers

theorem SameRegisters.constructed_right : s₂.constructed = true :=
  (congrArg Registers.constructed h.registers).symm.trans h.constructed_left

theorem SameRegisters.facing (es₁ es₂ : List HostEvent) : SameRegisters (s₁.facing es₁) (s₂.facing es₂) :=
  ⟨h.constructed_left, h.registers⟩

theorem SameRegisters.answer_left (b : Byte) : SameRegisters (answer s₁ b) s₂ :=
  ⟨h.constructed_left, h.registers⟩

theorem SameRegisters.processed (v : Byte) : SameRegisters (processed v s₁) (processed v s₂) := by
  obtain ⟨hcfg, hwindow, hcursor, hdebounced, -, hboth⟩ := (State.registers_eq_iff s₁ s₂).mp h.registers
  have hwindow' := processed_window_congr v hcfg hcursor fun i _ => congrArg (·[i]?) hwindow
  have hnew := processed_debounced_congr v hwindow'
  exact ⟨h.constructed_left, (State.registers_eq_iff _ _).mpr ⟨hcfg, hwindow', processed_cursor_congr v hcfg hcursor,
    hnew, processed_changed_congr v hnew hdebounced, hboth⟩⟩

/-- A query sees the registers only. -/
theorem SameRegisters.queryAnswer (q : Instr) :
    queryAnswer q s₁.debounced s₁.changed = queryAnswer q s₂.debounced s₂.changed := by
  rw [h.debounced, h.changed]

end SameRegisters

/-! ## Queries among samples -/

/-- R131, as the rule writes it. -/
theorem queryAnswer_pressed (m debounced changed : Byte) :
    queryAnswer (.pressed m) debounced changed = m &&& changed &&& debounced := (BitVec.and_assoc ..).symm

/-- R132, as the rule writes it. -/
theorem queryAnswer_released (m debounced changed : Byte) :
    queryAnswer (.released m) debounced changed = m &&& changed &&& ~~~debounced := (BitVec.and_assoc ..).symm

/-- A run of operations and the run of its `process`es alone end with the same registers (R31, R56). -/
theorem performAll_operations_sameRegisters (ops : List Instr) {s : State} (h : s.constructed = true) :
    ∃ t u : State, performAll s (ops.map operationEvent) = .next t ∧
      performAll s ((ops.filter fun i => !isQuery i).map operationEvent) = .next u ∧ SameRegisters t u := by
  refine performAll_simulation (R := SameRegisters) _ (fun h => h.facing [] []) ?both ?first (.refl h)
  case both =>
    intro i _ hprocess s₁ s₂ h
    obtain ⟨v, rfl, -⟩ | ⟨hq, -⟩ := exec_cases i s₁
    · exact ⟨_, _, performEvent_sample v h.constructed_left, performEvent_sample v h.constructed_right, h.processed v⟩
    · rw [hq] at hprocess; cases hprocess
  case first =>
    intro q _ hquery s₁ s₂ h
    have hq : isQuery q = true := by simpa using hquery
    exact ⟨_, (performEvent_operation q h.constructed_left).trans (exec_query hq s₁), h.answer_left _⟩

/-- Settles O39: the two runs end with the same registers, and a query sees nothing else. -/
theorem queriesDoNotDisturbTheSamples : Obligations.QueriesDoNotDisturbTheSamples := by
  intro s ops h
  obtain ⟨t, u, ht, hu, hsame⟩ := performAll_operations_sameRegisters ops h
  exact ⟨t, u, ht, hu, hsame.registers, fun q hq => exec_query_result_congr hq (hsame.queryAnswer q)⟩

/-- Queries alone leave the registers (R136). -/
theorem performAll_queries_sameRegisters {queries : List Instr} (hqueries : ∀ q ∈ queries, isQuery q = true)
    {s : State} (h : s.constructed = true) :
    ∃ t : State, performAll s (queries.map operationEvent) = .next t ∧ SameRegisters t s := by
  obtain ⟨t, u, ht, hu, hsame⟩ := performAll_operations_sameRegisters queries h
  have hnone : (queries.filter fun i => !isQuery i) = [] := by simpa using hqueries
  rw [hnone] at hu
  cases hu
  exact ⟨t, ht, hsame.constructed_left, hsame.registers⟩

/-- After queries the next query still answers from the registers before them. -/
theorem performAll_queries_answer {queries : List Instr} (hqueries : ∀ q ∈ queries, isQuery q = true)
    {q : Instr} (hq : isQuery q = true) {s : State} (h : s.constructed = true) :
    ∃ t : State, performAll s (queries.map operationEvent ++ [operationEvent q]) = .next t ∧
      t.result = some (queryAnswer q s.debounced s.changed) := by
  obtain ⟨u, hu, hsame⟩ := performAll_queries_sameRegisters hqueries h
  refine ⟨_, performAll_concat_query hq hu hsame.constructed_left (performAll_pending hu), ?_⟩
  rw [answer_result, hsame.queryAnswer]

/-- A `process` that flips no channel leaves no edge (R136). -/
theorem processed_changed_of_debounced_eq {v : Byte} {s : State} (h : (processed v s).debounced = s.debounced) :
    (processed v s).changed = 0 := by
  rw [processed_changed, h]; exact BitVec.xor_self

/-- Settles O19: queries leave the registers the answers come from; and a `process` that flips nothing has the new
state equal to the old, so their XOR is 0. -/
theorem edgesStandUntilTheNextSample : Obligations.EdgesStandUntilTheNextSample := by
  refine ⟨fun s queries m h hqueries => ?stand, fun s raw m => ⟨processed raw s, rfl, fun hkept => ?ended⟩⟩
  case stand =>
    obtain ⟨p, hp, hpressed⟩ := performAll_queries_answer hqueries (q := .pressed m) rfl h
    obtain ⟨r, hr, hreleased⟩ := performAll_queries_answer hqueries (q := .released m) rfl h
    refine ⟨p, r, hp, ?_, hr, ?_⟩
    · rw [hpressed, queryAnswer_pressed]
    · rw [hreleased, queryAnswer_released]
  case ended =>
    have hnone := processed_changed_of_debounced_eq hkept
    refine ⟨_, _, _, exec_query (q := .pressed m) rfl _, ?_, exec_query (q := .released m) rfl _, ?_,
      exec_query (q := .debouncedStateGet m) rfl _, ?_⟩
    · simp [hnone, queryAnswer]
    · simp [hnone, queryAnswer]
    · rw [answer_result, hkept, queryAnswer_debouncedStateGet]

/-! ## Clock edges (R78-R81) -/

/-- An edge with `sample_valid` and no reset is one `process`, on a constructed state. -/
theorem performEvent_sampleEdge {pins : PinInputs} (hrst : pins.rst = false) (hvalid : pins.sampleValid = true)
    {s : State} (h : s.constructed = true) :
    performEvent (.clockEdge pins) s = .next (processed pins.rawSample s) := by
  simp [performEvent, clockEdge, hrst, hvalid, whenConstructed_of_true h, execProcess]

/-- An edge with neither `rst` nor `sample_valid` changes nothing, in any state. -/
theorem performEvent_idleEdge {pins : PinInputs} (hrst : pins.rst = false) (hvalid : pins.sampleValid = false)
    (s : State) : performEvent (.clockEdge pins) s = .next s := by
  simp [performEvent, clockEdge, hrst, hvalid]

/-- Settles O23: an edge with `sample_valid` is the `process` of the other run and any other edge changes nothing, so
the registers stay the same; the outputs are the queries' answers in them. -/
theorem clockedRealisationMatchesTheOperations : Obligations.ClockedRealisationMatchesTheOperations := by
  intro s edges hconstructed hrst
  obtain ⟨t, u, ht, hu, hsame⟩ : ∃ t u : State, performAll s (edges.map .clockEdge) = .next t ∧
      performAll s ((edges.filter (·.sampleValid)).map fun pins => sampleEvent pins.rawSample) = .next u ∧
      SameRegisters t u := by
    refine performAll_simulation (R := SameRegisters) _ (fun h => h.facing [] []) ?sample ?idle (.refl hconstructed)
    case sample =>
      exact fun pins hpins hvalid s₁ s₂ h =>
        ⟨_, _, performEvent_sampleEdge (hrst pins hpins) hvalid h.constructed_left,
          performEvent_sample pins.rawSample h.constructed_right, h.processed pins.rawSample⟩
    case idle => exact fun pins hpins hvalid s₁ s₂ h => ⟨s₁, performEvent_idleEdge (hrst pins hpins) hvalid s₁, h⟩
  refine ⟨t, u, ht, hu, hsame.registers, fun m => ⟨_, _, _, exec_query (q := .pressed m) rfl u, ?pressed,
    exec_query (q := .released m) rfl u, ?released, exec_query (q := .debouncedStateGet m) rfl u, ?level⟩⟩
  case pressed => rw [answer_result, ← hsame.queryAnswer, queryAnswer_pressed, pinOutputs]
  case released => rw [answer_result, ← hsame.queryAnswer, queryAnswer_released, pinOutputs]
  case level => rw [answer_result, ← hsame.queryAnswer, queryAnswer_debouncedStateGet, pinOutputs]

/-! ## The cursor (R28, R30) -/

/-- Two constructed states that hold the same entries in order of age, wherever their rings start. -/
structure SameByAge (s₁ s₂ : State) : Prop where
  constructed_left : s₁.constructed = true
  constructed_right : s₂.constructed = true
  cfg : s₁.cfg = s₂.cfg
  oldestFirst : s₁.oldestFirst = s₂.oldestFirst
  debounced : s₁.debounced = s₂.debounced
  changed : s₁.changed = s₂.changed

/-- `process` sees the entries by age only. -/
theorem SameByAge.processed {s₁ s₂ : State} (h : SameByAge s₁ s₂) (v : Byte) :
    SameByAge (processed v s₁) (processed v s₂) where
  constructed_left := h.constructed_left
  constructed_right := h.constructed_right
  cfg := h.cfg
  oldestFirst := by rw [processed_oldestFirst, processed_oldestFirst, h.oldestFirst, h.cfg]
  debounced := by rw [processed_debounced_ring, processed_debounced_ring, h.oldestFirst, h.cfg]
  changed := by
    rw [processed_changed, processed_changed, processed_debounced_ring, processed_debounced_ring, h.oldestFirst, h.cfg,
      h.debounced]

/-- An operation answers the same in both, and leaves them alike. -/
theorem SameByAge.performEvent {s₁ s₂ : State} (h : SameByAge s₁ s₂) (i : Instr) : ∃ t₁ t₂ : State,
    performEvent (operationEvent i) s₁ = .next t₁ ∧ performEvent (operationEvent i) s₂ = .next t₂ ∧
      SameByAge t₁ t₂ ∧ t₁.result = t₂.result := by
  rw [performEvent_operation i h.constructed_left, performEvent_operation i h.constructed_right]
  obtain ⟨v, rfl, -⟩ | ⟨hq, -⟩ := exec_cases i s₁
  · exact ⟨_, _, rfl, rfl, h.processed v, rfl⟩
  · refine ⟨_, _, exec_query hq s₁, exec_query hq s₂, { h with }, ?_⟩
    rw [answer_result, answer_result, h.debounced, h.changed]

theorem SameByAge.facing {s₁ s₂ : State} (h : SameByAge s₁ s₂) (es₁ es₂ : List HostEvent) :
    SameByAge (s₁.facing es₁) (s₂.facing es₂) :=
  ⟨h.constructed_left, h.constructed_right, h.cfg, h.oldestFirst, h.debounced, h.changed⟩

/-- Operations leave two states alike by age. -/
theorem SameByAge.performAll {s₁ s₂ : State} (h : SameByAge s₁ s₂) (ops : List Instr) : ∃ t₁ t₂ : State,
    performAll s₁ (ops.map operationEvent) = .next t₁ ∧ performAll s₂ (ops.map operationEvent) = .next t₂ ∧
      SameByAge t₁ t₂ :=
  performAll_lockstep (fun h => h.facing [] [])
    (fun i _ _ _ h => let ⟨t₁, t₂, h₁, h₂, ht, _⟩ := h.performEvent i; ⟨t₁, t₂, h₁, h₂, ht⟩) h

/-- A run with one event more. -/
theorem performAll_concat_of_next {s t u : State} {es : List HostEvent} {e : HostEvent}
    (hrun : performAll s es = .next t) (hevent : performEvent e t = .next u) :
    performAll s (es ++ [e]) = .next (u.facing []) := by
  rw [performAll_append, hrun, andThen_next, performAll_cons_of_next hevent, performAll_nil]

/-- Settles O40: the operations before the last keep the two states alike by age, and then the last one answers the
same in both. -/
theorem theCursorIsHidden : Obligations.TheCursorIsHidden := by
  intro s₁ s₂ ops last hleft hright hcfg hring hdebounced hchanged
  have hstart : SameByAge s₁ s₂ := ⟨hleft, hright, hcfg, hring, hdebounced, hchanged⟩
  obtain ⟨u₁, u₂, hu₁, hu₂, hsame⟩ := hstart.performAll ops
  obtain ⟨t₁, t₂, ht₁, ht₂, hend, hresult⟩ := hsame.performEvent last
  rw [List.map_append]
  exact ⟨_, _, performAll_concat_of_next hu₁ ht₁, performAll_concat_of_next hu₂ ht₂, hresult, hend.debounced,
    hend.changed⟩

/-! ## The other channels (R113) -/

/-- Two constructed states that agree on everything channel `c` depends on. -/
structure SameOnChannel (c : Channel) (s₁ s₂ : State) : Prop where
  constructed_left : s₁.constructed = true
  constructed_right : s₂.constructed = true
  n : s₁.cfg.n = s₂.cfg.n
  cursor : s₁.cursor.val = s₂.cursor.val
  polarity : s₁.cfg.polarityMask[c.val] = s₂.cfg.polarityMask[c.val]
  lane : s₁.lane c = s₂.lane c

/-- `process` on one channel's slice: the sample's bit overwrites the entry at the cursor, and the bit is active when
every entry is. -/
def Lane.process (l : Lane) (cursor : Nat) (active : Bool) : Lane where
  window := l.window.set cursor active
  debounced := (l.window.set cursor active).all id
  changed := (l.window.set cursor active).all id ^^ l.debounced

/-- A channel's slice after `process` is a function of its slice before, the cursor and its corrected sample. -/
theorem processed_lane (v : Byte) (s : State) (c : Channel) :
    (processed v s).lane c = (s.lane c).process s.cursor.val (v[c.val] ^^ s.cfg.polarityMask[c.val]) := by
  have hwindow : (processed v s).window.toList.map (·[c.val]) =
      (s.lane c).window.set s.cursor.val (v[c.val] ^^ s.cfg.polarityMask[c.val]) := by
    rw [processed_window, List.map_set, correctSample_channel, State.lane]
  have hdebounced : (processed v s).debounced[c.val] =
      ((s.lane c).window.set s.cursor.val (v[c.val] ^^ s.cfg.polarityMask[c.val])).all id := by
    rw [processed_debounced, andAll_channel, ← hwindow, List.all_map]; rfl
  rw [State.lane, processed_changed_channel, hdebounced, hwindow]; rfl

theorem SameOnChannel.processed {c : Channel} {s₁ s₂ : State} (h : SameOnChannel c s₁ s₂) {v₁ v₂ : Byte}
    (hv : v₁[c.val] = v₂[c.val]) : SameOnChannel c (processed v₁ s₁) (processed v₂ s₂) where
  constructed_left := h.constructed_left
  constructed_right := h.constructed_right
  n := h.n
  cursor := by rw [processed_cursor, processed_cursor, h.cursor, h.n]
  polarity := h.polarity
  lane := by rw [processed_lane, processed_lane, h.lane, h.cursor, h.polarity, hv]

/-- A channel of a query's answer is a function of the mask's bit and the channel's slice (R113, R130). -/
theorem queryAnswer_channel_congr (opcode : Opcode) (c : Channel) {m₁ m₂ d₁ d₂ e₁ e₂ : Byte}
    (hm : m₁[c.val] = m₂[c.val]) (hd : d₁[c.val] = d₂[c.val]) (he : e₁[c.val] = e₂[c.val]) :
    (queryAnswer (Instr.ofOpcode opcode m₁) d₁ e₁)[c.val] = (queryAnswer (Instr.ofOpcode opcode m₂) d₂ e₂)[c.val] := by
  cases opcode <;> simp [Instr.ofOpcode, queryAnswer, hm, hd, he]

theorem isQuery_ofOpcode_operand (opcode : Opcode) (m₁ m₂ : Byte) :
    isQuery (Instr.ofOpcode opcode m₁) = isQuery (Instr.ofOpcode opcode m₂) := by
  cases opcode <;> rfl

theorem SameOnChannel.facing {c : Channel} {s₁ s₂ : State} (h : SameOnChannel c s₁ s₂) (es₁ es₂ : List HostEvent) :
    SameOnChannel c (s₁.facing es₁) (s₂.facing es₂) :=
  ⟨h.constructed_left, h.constructed_right, h.n, h.cursor, h.polarity, h.lane⟩

/-- Samples that agree on the channel keep the two states alike on it. -/
theorem SameOnChannel.performAll {c : Channel} {s₁ s₂ : State} (h : SameOnChannel c s₁ s₂)
    {samples : List (Byte × Byte)} (hsamples : ∀ v ∈ samples, v.1[c.val] = v.2[c.val]) : ∃ t₁ t₂ : State,
      performAll s₁ (samples.map fun v => sampleEvent v.1) = .next t₁ ∧
      performAll s₂ (samples.map fun v => sampleEvent v.2) = .next t₂ ∧ SameOnChannel c t₁ t₂ :=
  performAll_lockstep (fun h => h.facing [] [])
    (fun v hv _ _ h => ⟨_, _, performEvent_sample v.1 h.constructed_left, performEvent_sample v.2 h.constructed_right,
      h.processed (hsamples v hv)⟩) h

/-- Settles O38: the runs keep the two states alike on the channel, and a query's answer on the channel comes from
the channel's slice. -/
theorem channelsAreIndependent : Obligations.ChannelsAreIndependent := by
  intro c s₁ s₂ samples hleft hright hn hcursor hpolarity hlane hsamples
  have hstart : SameOnChannel c s₁ s₂ := ⟨hleft, hright, hn, hcursor, hpolarity, hlane⟩
  obtain ⟨t₁, t₂, ht₁, ht₂, hsame⟩ := hstart.performAll hsamples
  refine ⟨t₁, t₂, ht₁, ht₂, hsame.lane, fun opcode m₁ m₂ hq₁ hm => ?answers⟩
  case answers =>
    have hq₂ : isQuery (Instr.ofOpcode opcode m₂) = true := (isQuery_ofOpcode_operand opcode m₂ m₁).trans hq₁
    have hdebounced : t₁.debounced[c.val] = t₂.debounced[c.val] := congrArg Lane.debounced hsame.lane
    have hchanged : t₁.changed[c.val] = t₂.changed[c.val] := congrArg Lane.changed hsame.lane
    exact ⟨_, _, _, _, exec_query hq₁ t₁, answer_result .., exec_query hq₂ t₂, answer_result ..,
      queryAnswer_channel_congr opcode c hm hdebounced hchanged⟩

end Sys2Proof.Machine
end

section
/-! One `process` (spec/40_process.md R100-R115): the whole transition, its cursor, its frame and its corner cases. -/

namespace Sys2Proof.Machine

open Sys2Proof

/-- Settles O5: the five steps are the definition of `process`, its word is the `op` bits 00 and the operand, and the
worked example reads the fields of the processed state. -/
theorem processPerformsTheFiveSteps : Obligations.ProcessPerformsTheFiveSteps := by
  refine ⟨fun s raw => rfl, fun raw => encode_ofOpcode (opcode := .process) (by decide) raw,
    fun cfg hn hmask => ?worked⟩
  case worked =>
    have hwindow : (processed 0x00 (State.construction cfg)).window.toList = [0x01, 0x00, 0x00] := by
      rw [processed_window, State.construction_window, State.construction_cursor, State.construction_cfg, hn,
        correctSample, hmask]
      decide
    have hdebounced : (processed 0x00 (State.construction cfg)).debounced = 0x00 := by
      rw [processed_debounced, hwindow]; decide
    refine ⟨_, rfl, hwindow, ?_, ?_, hdebounced⟩
    · rw [processed_cursor, State.construction_cursor, State.construction_cfg, hn]
    · rw [processed_changed, hdebounced, State.construction_debounced]; rfl

/-! ## The cursor (R104) -/

/-- The 8-bit register holds every value of `CURSOR` (R22, D8). -/
theorem cursorRegister_toNat (s : State) : (cursorRegister s).toNat = s.cursor.val := by
  have hlt : s.cursor.val < 2 ^ 8 := by have := s.cursor.isLt; have := s.cfg.n_le; omega
  rw [cursorRegister, BitVec.toNat_ofNat, Nat.mod_eq_of_lt hlt]

/-- `(CURSOR + 1) mod N` is 0 at the last index and the next index elsewhere. -/
theorem processed_cursor_eq_ite (raw : Byte) (s : State) :
    (processed raw s).cursor.val = if s.cursor.val = s.cfg.n - 1 then 0 else s.cursor.val + 1 := by
  have hcursor := s.cursor.isLt
  rw [processed_cursor]
  split
  case isTrue hlast => rw [show s.cursor.val + 1 = s.cfg.n by omega, Nat.mod_self]
  case isFalse hinner => exact Nat.mod_eq_of_lt (by omega)

/-- With one entry the cursor has one place. -/
theorem cursor_eq_zero_of_one (s : State) (h : s.cfg.n = 1) : s.cursor.val = 0 := by
  have hcursor := s.cursor.isLt
  omega

/-- Settles O8: the cursor is below `N`, and so at most 254; adding 1 stays within 8 bits. -/
theorem cursorAdvancesAroundTheRing : Obligations.CursorAdvancesAroundTheRing := by
  intro s raw
  have hle : s.cursor.val ≤ 254 := by have := s.cursor.isLt; have := s.cfg.n_le; omega
  refine ⟨processed raw s, rfl, processed_cursor raw s, processed_cursor_eq_ite raw s, cursorRegister_toNat s, hle,
    ?noCarry, cursor_eq_zero_of_one (processed raw s)⟩
  case noCarry =>
    have hsum : (cursorRegister s + 1).toNat = (s.cursor.val + 1) % 2 ^ 8 := by
      rw [BitVec.toNat_add, cursorRegister_toNat]; rfl
    rw [hsum, Nat.mod_eq_of_lt (by omega)]

/-- Settles O11: the frame of `process`, field by field. -/
theorem processLeavesTheRestUnchanged : Obligations.ProcessLeavesTheRestUnchanged := fun s raw =>
  ⟨processed raw s, rfl, processed_cfg raw s, fun _ hi => processed_entry_other raw s hi,
    processed_constructed raw s, processed_pending raw s, processed_powerCycles raw s, processed_result raw s⟩

/-! ## Corner cases (R115, R102) -/

theorem allActive_channel (c : Channel) : (0xFF : Byte)[c.val] = true := by
  revert c; decide

/-- The raw idle pattern is corrected to no channel active (R115). -/
@[simp] theorem correctSample_idle (cfg : Config) : correctSample cfg cfg.polarityMask = 0x00 :=
  BitVec.xor_self

/-- The raw pattern with every channel pressed is corrected to all channels active. -/
theorem correctSample_allPressed (cfg : Config) : correctSample cfg (~~~cfg.polarityMask) = 0xFF :=
  byte_eq_of_channels fun c => by
    rw [correctSample_channel, BitVec.getElem_not, allActive_channel]
    cases cfg.polarityMask[c.val] <;> rfl

/-- An idle sample clears the debounced state (R107). -/
theorem processed_idle_debounced (s : State) : (processed s.cfg.polarityMask s).debounced = 0x00 :=
  byte_eq_of_channels fun c => by
    rw [processed_debounced_of_inactive (by simp)]; simp

/-- Overwriting an entry with all channels active leaves the AND of the others. -/
theorem andAll_set_allActive {entries : List Byte} {i : Nat} (hi : i < entries.length) :
    andAll (entries.set i 0xFF) = andAll (entries.eraseIdx i) :=
  byte_eq_of_channels fun c => by
    rw [andAll_channel, andAll_channel, List.set_eq_take_append_cons_drop, if_pos hi, List.eraseIdx_eq_take_drop_succ,
      List.all_append, List.all_append, List.all_cons, allActive_channel, Bool.true_and]

/-- Settles O12: each corner case is a value of the corrected sample or of the cursor, put into the lemmas about one
`process`. -/
theorem processCornerCases : Obligations.ProcessCornerCases := by
  refine fun s => ⟨fun raw hone => ⟨processed raw s, rfl, cursor_eq_zero_of_one _ hone,
      processed_debounced_of_one raw hone⟩,
    fun raw hlast => ⟨processed raw s, rfl, ?lastEntry, ?wraps⟩,
    ⟨processed s.cfg.polarityMask s, rfl, ?idleEntry, processed_idle_debounced s, ?idleChanged⟩,
    ⟨processed (~~~s.cfg.polarityMask) s, rfl, ?pressedEntry, ?pressedDebounced⟩,
    fun raw hmask => ⟨processed raw s, rfl, ?activeHigh⟩, fun raw hmask => ⟨processed raw s, rfl, ?activeLow⟩⟩
  case lastEntry => rw [← hlast, processed_entry_self, correctSample]
  case wraps => rw [processed_cursor_eq_ite, if_pos hlast]
  case idleEntry => rw [processed_entry_self, correctSample_idle]
  case idleChanged => rw [processed_changed, processed_idle_debounced]; exact BitVec.zero_xor
  case pressedEntry => rw [processed_entry_self, correctSample_allPressed]
  case pressedDebounced =>
    rw [processed_debounced, processed_window, correctSample_allPressed, andAll_set_allActive (by simp)]
  case activeHigh => rw [processed_entry_self, correctSample, hmask]; exact congrArg some BitVec.xor_zero
  case activeLow => rw [processed_entry_self, correctSample, hmask]; exact congrArg some BitVec.xor_allOnes

end Sys2Proof.Machine
end

section
/-! The answers of the queries (spec/41_queries.md R131-R135): their words, the masks they keep to and how they are
related. -/

namespace Sys2Proof.Machine

open Sys2Proof

/-- Settles O13: the answers are the rules' expressions, and each word is the `op` bits with the mask. -/
theorem queriesAnswerFromTheCommittedState : Obligations.QueriesAnswerFromTheCommittedState := by
  refine fun s m => ⟨⟨?pressed, encode_ofOpcode (opcode := .pressed) (by decide) m⟩,
    ⟨?released, encode_ofOpcode (opcode := .released) (by decide) m⟩,
    ⟨?level, encode_ofOpcode (opcode := .debouncedStateGet) (by decide) m⟩⟩
  case pressed => rw [exec_query rfl, queryAnswer_pressed, answer]
  case released => rw [exec_query rfl, queryAnswer_released, answer]
  case level => rw [exec_query rfl, queryAnswer_debouncedStateGet, answer]

/-- The answer for a mask is the answer for all channels, masked (R134). -/
theorem queryAnswer_eq_whole_and_mask {opcode : Opcode} {m : Byte} (hq : isQuery (Instr.ofOpcode opcode m) = true)
    (debounced changed : Byte) : queryAnswer (Instr.ofOpcode opcode m) debounced changed =
      queryAnswer (Instr.ofOpcode opcode 0xFF) debounced changed &&& m := by
  have hselect (value : Byte) : m &&& value = (0xFF &&& value) &&& m := by
    rw [show (0xFF : Byte) = BitVec.allOnes 8 from rfl, BitVec.allOnes_and, BitVec.and_comm]
  cases opcode with
  | process => cases hq
  | pressed => exact hselect _
  | released => exact hselect _
  | debouncedStateGet => exact hselect _

/-- Settles O16: a query's answer is a value selected by the mask. -/
theorem maskIsolation : Obligations.MaskIsolation := by
  intro s opcode m hq
  have hwhole : isQuery (Instr.ofOpcode opcode 0xFF) = true := (isQuery_ofOpcode_operand opcode 0xFF m).trans hq
  have hwithin := queryAnswer_within_mask hq s.debounced s.changed
  rw [Instr.operand_ofOpcode] at hwithin
  exact ⟨_, _, _, _, exec_query hq s, answer_result .., exec_query hwhole s, answer_result .., hwithin,
    queryAnswer_eq_whole_and_mask hq _ _⟩

section Related

variable (m debounced changed : Byte)

theorem pressed_and_released :
    queryAnswer (.pressed m) debounced changed &&& queryAnswer (.released m) debounced changed = 0x00 :=
  byte_eq_of_channels fun c => by cases h : debounced[c.val] <;> simp [queryAnswer, h]

theorem pressed_or_released :
    queryAnswer (.pressed m) debounced changed ||| queryAnswer (.released m) debounced changed = m &&& changed :=
  byte_eq_of_channels fun c => by cases h : debounced[c.val] <;> simp [queryAnswer, h]

theorem pressed_and_not_level :
    queryAnswer (.pressed m) debounced changed &&& ~~~queryAnswer (.debouncedStateGet m) debounced changed = 0x00 :=
  byte_eq_of_channels fun c => by cases h : debounced[c.val] <;> cases h' : m[c.val] <;> simp [queryAnswer, h, h']

theorem released_and_level :
    queryAnswer (.released m) debounced changed &&& queryAnswer (.debouncedStateGet m) debounced changed = 0x00 :=
  byte_eq_of_channels fun c => by cases h : debounced[c.val] <;> simp [queryAnswer, h]

end Related

/-- Settles O17: per channel the answers are products of the mask's, the changed and the debounced bit. -/
theorem queriesAreRelated : Obligations.QueriesAreRelated := by
  refine fun s m => ⟨_, _, _, _, _, _, exec_query (q := .pressed m) rfl s, answer_result ..,
    exec_query (q := .released m) rfl s, answer_result .., exec_query (q := .debouncedStateGet m) rfl s,
    answer_result .., pressed_and_released .., pressed_or_released .., pressed_and_not_level ..,
    released_and_level .., fun c => ?laneTable⟩
  case laneTable =>
    simp only [queryAnswer, BitVec.getElem_and, BitVec.getElem_not]
    cases m[c.val] <;> cases s.changed[c.val] <;> cases s.debounced[c.val] <;> rfl

end Sys2Proof.Machine
end

section
/-! Runs of samples (spec/10_state.md R30, spec/40_process.md R105-R115): the ring after k samples, and from it when a
channel is active and when it flips. -/

namespace Sys2Proof.Machine

open Sys2Proof

/-! ## The ring and the window -/

/-- The ring is the window read from the cursor on (R21). -/
theorem oldestFirst_perm_window (s : State) : s.oldestFirst.Perm s.window.toList := by
  have h : (s.window.toList.take s.cursor.val ++ s.window.toList.drop s.cursor.val).Perm s.window.toList := by
    rw [List.take_append_drop]
  exact List.perm_append_comm.trans h

/-- Equal entries look the same from every cursor (R30). -/
theorem oldestFirst_eq_replicate_iff {s : State} {k : Nat} {b : Byte} :
    s.oldestFirst = List.replicate k b ↔ s.window.toList = List.replicate k b := by
  rw [← List.perm_replicate, ← List.perm_replicate]
  exact ⟨(oldestFirst_perm_window s).symm.trans, (oldestFirst_perm_window s).trans⟩

/-- The AND of entries is the same in every order (R30). -/
theorem andAll_perm {xs ys : List Byte} (h : xs.Perm ys) : andAll xs = andAll ys :=
  byte_eq_of_channels fun c => by rw [andAll_channel, andAll_channel, h.all_eq]

/-- The AND of equal entries is that entry. -/
theorem andAll_replicate {k : Nat} (hk : 1 ≤ k) (b : Byte) : andAll (List.replicate k b) = b :=
  byte_eq_of_channels fun c => by
    rw [andAll_channel, List.all_replicate, if_neg (by omega)]

/-! ## A channel inactive in the newest entry -/

/-- Channel `c` is inactive in the newest entry of the ring. -/
def NewestInactive (c : Channel) (s : State) : Prop :=
  ∃ (older : List Byte) (newest : Byte), s.oldestFirst = older ++ [newest] ∧ newest[c.val] = false

theorem newestInactive_processed {c : Channel} {raw : Byte} {s : State}
    (h : (correctSample s.cfg raw)[c.val] = false) : NewestInactive c (processed raw s) :=
  ⟨_, _, processed_oldestFirst raw s, h⟩

theorem newestInactive_of_idle {s : State} (h : s.oldestFirst = List.replicate s.cfg.n 0x00) (c : Channel) :
    NewestInactive c s := by
  obtain ⟨k, hk⟩ : ∃ k, s.cfg.n = k + 1 := Nat.exists_eq_add_of_le' s.cfg.n_pos
  exact ⟨List.replicate k 0x00, 0x00, by rw [h, hk, List.replicate_succ'], by simp⟩

/-- An inactive entry stays in the ring, and holds its channel inactive, for fewer than `N` further samples
(R111, R112). -/
theorem ingested_debounced_of_newestInactive {c : Channel} {s : State} (hnewest : NewestInactive c s)
    (hinactive : s.debounced[c.val] = false) {vs : List Byte} (hfew : vs.length < s.cfg.n) :
    (ingested s vs).debounced[c.val] = false := by
  obtain ⟨older, newest, hring, hoff⟩ := hnewest
  by_cases hvs : vs = []
  · rwa [hvs, ingested_nil]
  · have hlength : older.length + 1 = s.cfg.n := by rw [← oldestFirst_length, hring, List.length_append]; rfl
    have hstays : (ingested s vs).oldestFirst = older.drop vs.length ++ newest :: vs.map (correctSample s.cfg) := by
      rw [ingested_oldestFirst, hring, List.append_assoc, List.drop_append_of_le_length (by omega)]; rfl
    rw [ingested_debounced s hvs, andAll_channel, hstays, List.all_append, List.all_cons, hoff, Bool.false_and,
      Bool.and_false]

/-- From an inactive newest entry, a channel active in every further sample is active exactly from the `N`th on
(R111). -/
theorem ingested_debounced_of_active {c : Channel} {s : State} (hnewest : NewestInactive c s)
    (hinactive : s.debounced[c.val] = false) {vs : List Byte}
    (hactive : ∀ v ∈ vs, (correctSample s.cfg v)[c.val] = true) :
    (ingested s vs).debounced[c.val] = decide (s.cfg.n ≤ vs.length) := by
  by_cases hfull : s.cfg.n ≤ vs.length
  · rw [ingested_debounced_of_full hfull, decide_eq_true hfull, andAll_correctSample_channel_iff]
    exact fun v hv => hactive v (List.mem_of_mem_drop hv)
  · rw [ingested_debounced_of_newestInactive hnewest hinactive (by omega), decide_eq_false hfull]

/-- `CHANGED` after at least one sample: the debounced state against that of one sample before (R108). -/
theorem ingested_changed (s : State) {vs : List Byte} (h : vs ≠ []) :
    (ingested s vs).changed = (ingested s vs).debounced ^^^ (ingested s vs.dropLast).debounced := by
  have hlast : ingested s vs = processed (vs.getLast h) (ingested s vs.dropLast) := by
    rw [← ingested_concat, List.dropLast_concat_getLast]
  rw [hlast, processed_changed]

/-- The press edge is at the `N`th active sample and at no other (R111). -/
theorem ingested_changed_of_active {c : Channel} {s : State} (hnewest : NewestInactive c s)
    (hinactive : s.debounced[c.val] = false) {vs : List Byte} (hvs : vs ≠ [])
    (hactive : ∀ v ∈ vs, (correctSample s.cfg v)[c.val] = true) :
    (ingested s vs).changed[c.val] = decide (vs.length = s.cfg.n) := by
  have hlength : 0 < vs.length := List.length_pos_of_ne_nil hvs
  have hbefore : ∀ v ∈ vs.dropLast, (correctSample s.cfg v)[c.val] = true := fun v hv =>
    hactive v (List.mem_of_mem_dropLast hv)
  rw [ingested_changed s hvs, BitVec.getElem_xor, ingested_debounced_of_active hnewest hinactive hactive,
    ingested_debounced_of_active hnewest hinactive hbefore, List.length_dropLast, Bool.eq_iff_iff]
  simp only [bne_iff_ne, ne_eq, decide_eq_decide, decide_eq_true_eq]
  omega

/-! ## From construction -/

/-- The construction state with the ring starting at any index (R30). -/
def constructionAt (cfg : Config) (start : Fin cfg.n) : State :=
  { State.construction cfg with cursor := start }

theorem constructionAt_oldestFirst (cfg : Config) (start : Fin cfg.n) :
    (constructionAt cfg start).oldestFirst = List.replicate cfg.n 0x00 :=
  oldestFirst_eq_replicate_iff.mpr (State.construction_window cfg)

@[simp] theorem construction_oldestFirst (cfg : Config) :
    (State.construction cfg).oldestFirst = List.replicate cfg.n 0x00 :=
  constructionAt_oldestFirst cfg ⟨0, cfg.n_pos⟩

/-- Before `N` samples from an idle ring no channel is active (R30, R137). -/
theorem ingested_debounced_of_idle {s : State} (hring : s.oldestFirst = List.replicate s.cfg.n 0x00)
    (hinactive : s.debounced = 0x00) {vs : List Byte} (hfew : vs.length < s.cfg.n) :
    (ingested s vs).debounced = 0x00 :=
  byte_eq_of_channels fun c => by
    rw [ingested_debounced_of_newestInactive (newestInactive_of_idle hring c) (by simp [hinactive]) hfew]; simp

/-- Settles O31: each sample turns the ring once, and the entry at the cursor is the ring's oldest. -/
theorem ringHoldsTheLastSamples : Obligations.RingHoldsTheLastSamples := by
  refine fun cfg samples =>
    ⟨_, performAll_samples samples (State.construction_constructed cfg), ?ring, fun hfull => ?oldest⟩
  case ring => rw [facing_oldestFirst, ingested_oldestFirst, construction_oldestFirst]; rfl
  case oldest => rw [← oldestFirst_head?, facing_oldestFirst, ingested_oldestFirst_of_full hfull, List.map_drop]; rfl

/-- Settles O32: with `N` samples the ring holds those alone, and with fewer an entry 0x00 is left in it. -/
theorem debouncedIsTheAndOfTheLastSamples : Obligations.DebouncedIsTheAndOfTheLastSamples := by
  refine ⟨fun cfg start samples =>
    ⟨_, performAll_samples (s := constructionAt cfg start) samples rfl, ?debounced, ?cursor⟩, fun xs ys => andAll_perm⟩
  case debounced =>
    rw [State.facing_debounced]
    split
    case isTrue hfull =>
      rw [ingested_debounced_of_full (s := constructionAt cfg start) hfull, List.map_drop]; rfl
    case isFalse hfew =>
      exact ingested_debounced_of_idle (constructionAt_oldestFirst cfg start) rfl (Nat.lt_of_not_le hfew)
  case cursor => exact ingested_cursor (constructionAt cfg start) samples

/-- Settles O34: both an inactive sample and construction leave the channel inactive in the newest entry. -/
theorem pressLatency : Obligations.PressLatency := by
  refine ⟨fun s c idle samples hconstructed hidle hactive =>
      ⟨_, performAll_samples (idle :: samples) hconstructed, ?afterInactive⟩,
    fun cfg c samples hactive => ⟨_, performAll_samples samples (State.construction_constructed cfg),
      ?fromConstruction⟩⟩
  case afterInactive =>
    have hnewest : NewestInactive c (processed idle s) := newestInactive_processed hidle
    have hinactive : (processed idle s).debounced[c.val] = false := processed_debounced_of_inactive hidle
    have hdebounced := ingested_debounced_of_active hnewest hinactive hactive
    have hpos : 0 < s.cfg.n := s.cfg.n_pos
    have hchanged (h : 0 < samples.length) :=
      ingested_changed_of_active hnewest hinactive (List.ne_nil_of_length_pos h) hactive
    rw [State.facing_debounced, State.facing_changed, ingested_cons]
    refine ⟨?level, fun h => ?press, fun h => ?later⟩
    case level => rw [hdebounced, decide_eq_true_iff, processed_cfg]
    case press => rw [hchanged (by omega), processed_cfg, decide_eq_true h]
    case later => rw [hchanged (by omega), processed_cfg, decide_eq_false (by omega)]
  case fromConstruction =>
    have hnewest : NewestInactive c (State.construction cfg) :=
      newestInactive_of_idle (construction_oldestFirst cfg) c
    have hinactive : (State.construction cfg).debounced[c.val] = false := by simp
    rw [State.facing_debounced, State.facing_changed]
    refine ⟨?level, fun h => ?press⟩
    case level =>
      rw [ingested_debounced_of_active hnewest hinactive hactive, decide_eq_true_iff, State.construction_cfg]
    case press =>
      have hvs : samples ≠ [] := List.ne_nil_of_length_pos (h ▸ cfg.n_pos)
      rw [ingested_changed_of_active hnewest hinactive hvs hactive, State.construction_cfg, decide_eq_true h]

/-- Settles O35: the inactive sample takes part in the AND at once, and stays in the ring for the next N-1. -/
theorem immediateRelease : Obligations.ImmediateRelease := by
  intro s c raw hactive hraw
  have hreleased : (processed raw s).debounced[c.val] = false := processed_debounced_of_inactive hraw
  refine ⟨⟨processed raw s, rfl, hreleased, ?edge⟩, fun samples hconstructed hfew =>
    ⟨_, performAll_samples (raw :: samples) hconstructed,
      ingested_debounced_of_newestInactive (newestInactive_processed hraw) hreleased hfew⟩⟩
  case edge => rw [processed_changed_channel, hreleased, hactive]; rfl

/-- Settles O18: before `N` samples no channel is active, neither now nor one sample ago, so none changed. -/
theorem idleStability : Obligations.IdleStability := by
  intro cfg samples q hfew hq
  have hlevel {vs : List Byte} (h : vs.length < cfg.n) : (ingested (State.construction cfg) vs).debounced = 0x00 :=
    ingested_debounced_of_idle (construction_oldestFirst cfg) rfl h
  have hedges : (ingested (State.construction cfg) samples).changed = 0x00 := by
    by_cases hnone : samples = []
    · rw [hnone, ingested_nil, State.construction_changed]
    · have hbefore : samples.dropLast.length < cfg.n := by rw [List.length_dropLast]; omega
      rw [ingested_changed _ hnone, hlevel hfew, hlevel hbefore]; exact BitVec.xor_self
  have hconstructed : ((ingested (State.construction cfg) samples).facing []).constructed = true :=
    ingested_constructed _ samples
  refine ⟨_, performAll_concat_query hq (performAll_samples samples rfl) hconstructed rfl, ?answer⟩
  case answer =>
    rw [answer_result, State.facing_debounced, State.facing_changed, hlevel hfew, hedges]
    cases q <;> simp [queryAnswer]

/-! ## One sample repeated (R115, R183) -/

/-- `N` or more equal samples fill the ring with their corrected form. -/
theorem ingested_oldestFirst_of_replicate {s : State} {k : Nat} (hk : s.cfg.n ≤ k) (raw : Byte) :
    (ingested s (List.replicate k raw)).oldestFirst = List.replicate s.cfg.n (correctSample s.cfg raw) := by
  have hfull : s.cfg.n ≤ (List.replicate k raw).length := by rwa [List.length_replicate]
  rw [ingested_oldestFirst_of_full hfull, List.length_replicate, List.drop_replicate, List.map_replicate,
    Nat.sub_sub_self hk]

/-- `N` or more equal samples settle the debounced state at their corrected form (R115). -/
theorem ingested_debounced_of_replicate {s : State} {k : Nat} (hk : s.cfg.n ≤ k) (raw : Byte) :
    (ingested s (List.replicate k raw)).debounced = correctSample s.cfg raw := by
  have hpos : 0 < k := Nat.lt_of_lt_of_le s.cfg.n_pos hk
  have hne : List.replicate k raw ≠ [] := List.ne_nil_of_length_pos (by rwa [List.length_replicate])
  rw [ingested_debounced s hne, ingested_oldestFirst_of_replicate hk, andAll_replicate s.cfg.n_pos]

/-- Settles O36: the ring is full of the one entry after N samples, and still after N + 1. -/
theorem repeatedSampleSettles : Obligations.RepeatedSampleSettles := by
  intro s raw hconstructed
  have hmore : processed raw (ingested s (List.replicate s.cfg.n raw)) =
      ingested s (List.replicate (s.cfg.n + 1) raw) := by
    rw [← ingested_concat, ← List.replicate_succ']
  have hkept : (processed raw (ingested s (List.replicate s.cfg.n raw))).debounced =
      (ingested s (List.replicate s.cfg.n raw)).debounced := by
    rw [hmore, ingested_debounced_of_replicate (Nat.le_succ _), ingested_debounced_of_replicate (Nat.le_refl _)]
  exact ⟨_, _, performAll_samples _ hconstructed, ingested_debounced_of_replicate (Nat.le_refl _) raw, rfl, hkept,
    processed_changed_of_debounced_eq hkept⟩

/-- Idle samples keep a state with no channel active so. -/
theorem ingested_idle_debounced {s : State} (h : s.debounced = 0x00) (k : Nat) :
    (ingested s (List.replicate k s.cfg.polarityMask)).debounced = 0x00 := by
  cases k with
  | zero => exact h
  | succ k =>
    have hidle := processed_idle_debounced (ingested s (List.replicate k s.cfg.polarityMask))
    rw [ingested_cfg] at hidle
    rw [List.replicate_succ', ingested_concat, hidle]

/-- Settles O25: the idle samples fill the ring with 0x00 and turn the cursor once around, and no channel was active
before the last of them either. -/
theorem resetActsLikeIdleSamples : Obligations.ResetActsLikeIdleSamples := by
  intro s hconstructed hinactive
  refine ⟨_, performAll_samples _ hconstructed, ?registers⟩
  case registers =>
    have hwindow : (ingested s (List.replicate s.cfg.n s.cfg.polarityMask)).window.toList =
        List.replicate s.cfg.n 0x00 := by
      rw [← oldestFirst_eq_replicate_iff, ingested_oldestFirst_of_replicate (Nat.le_refl _), correctSample_idle]
    have hcursor : (ingested s (List.replicate s.cfg.n s.cfg.polarityMask)).cursor.val = s.cursor.val := by
      rw [ingested_cursor, List.length_replicate, Nat.add_mod_right, Nat.mod_eq_of_lt s.cursor.isLt]
    have hdebounced := ingested_idle_debounced hinactive
    have hchanged : (ingested s (List.replicate s.cfg.n s.cfg.polarityMask)).changed = 0x00 := by
      have hne : List.replicate s.cfg.n s.cfg.polarityMask ≠ [] :=
        List.ne_nil_of_length_pos (by rw [List.length_replicate]; exact s.cfg.n_pos)
      rw [ingested_changed s hne, List.dropLast_replicate, hdebounced, hdebounced]; exact BitVec.xor_self
    rw [State.facing_registers, State.registers, State.registers, hwindow, hcursor, hdebounced, hchanged, ingested_cfg,
      ingested_constructed, hconstructed, State.construction_window]; rfl

end Sys2Proof.Machine
end

section
/-! The invariant of every run (spec/10_state.md R26): INV-AND and the shape of release edges. -/

namespace Sys2Proof.Machine

open Sys2Proof

/-- The entry `process` wrote is the newest (R22, R105). -/
theorem processed_newest (raw : Byte) (s : State) : (processed raw s).newest = s.cursor.val := by
  have hcursor := s.cursor.isLt
  rw [State.newest, processed_cursor, processed_cfg, Nat.mod_add_mod,
    show s.cursor.val + 1 + (s.cfg.n - 1) = s.cursor.val + s.cfg.n by omega, Nat.add_mod_right,
    Nat.mod_eq_of_lt hcursor]

/-- An active channel of the AND is active in every entry. -/
theorem window_channel_of_andAll {s : State} {c : Channel} (h : (andAll s.window.toList)[c.val] = true)
    (i : Fin s.cfg.n) : (s.window[i.val])[c.val] = true := by
  rw [andAll_channel, List.all_eq_true] at h
  exact h _ (by simp)

/-- The window after `process`, entry by entry. -/
theorem processed_window_getElem (raw : Byte) (s : State) (i : Fin s.cfg.n) :
    (processed raw s).window[i.val] =
      if i.val = s.cursor.val then correctSample s.cfg raw else s.window[i.val] := by
  calc (processed raw s).window[i.val]
    _ = (s.window.set s.cursor.val (correctSample s.cfg raw) s.cursor.isLt)[i.val] := rfl
    _ = if s.cursor.val = i.val then correctSample s.cfg raw else s.window[i.val] := Vector.getElem_set ..
    _ = if i.val = s.cursor.val then correctSample s.cfg raw else s.window[i.val] := by simp only [eq_comm]

/-- Where every entry was active, the sample alone decides. -/
theorem processed_debounced_of_active {s : State} {c : Channel} (h : (andAll s.window.toList)[c.val] = true)
    (raw : Byte) : (processed raw s).debounced[c.val] = (correctSample s.cfg raw)[c.val] := by
  rw [← andAll_oldestFirst, andAll_channel, List.all_eq_true] at h
  have hrest : s.oldestFirst.tail.all (·[c.val]) = true :=
    List.all_eq_true.mpr fun e he => h e (List.mem_of_mem_tail he)
  rw [processed_debounced_ring, andAll_channel, List.all_append, hrest, Bool.true_and, List.all_cons, List.all_nil,
    Bool.and_true]

/-- `process` gives INV-AND whatever the state, and leaves release edges of the right shape on a state that has
INV-AND: a channel released was active in every entry before, so the sample just written is what ended it (R112). -/
theorem processed_inv (raw : Byte) {s : State} (h : s.debounced = andAll s.window.toList) : (processed raw s).Inv := by
  refine fun _ => ⟨processed_debounced raw s, fun c hchanged hreleased i => ?shape⟩
  case shape =>
    have hactive : (andAll s.window.toList)[c.val] = true := by
      rw [processed_changed_channel, hreleased, Bool.false_xor] at hchanged
      rwa [← h]
    have hold := window_channel_of_andAll hactive
    have hsample : (correctSample s.cfg raw)[c.val] = false := by
      rw [← processed_debounced_of_active hactive, hreleased]
    rw [processed_newest, processed_window_getElem raw s i]
    split
    case isTrue hwritten => rw [hsample, decide_eq_false (not_not_intro hwritten)]
    case isFalse hkept => rw [hold i, decide_eq_true hkept]

theorem construction_inv (cfg : Config) : (State.construction cfg).Inv := by
  refine fun _ => ⟨?and, fun c hchanged => ?shape⟩
  case and =>
    rw [State.construction_debounced, State.construction_window]
    exact (andAll_replicate cfg.n_pos 0x00).symm
  case shape => simp at hchanged

/-- Settles O30: every entry is 0x00, and no channel has changed. -/
theorem constructionMeetsTheInvariant : Obligations.ConstructionMeetsTheInvariant :=
  ⟨construction_inv, construction_inv _⟩

theorem performEvent_inv {e : HostEvent} {s t : State} (h : s.Inv) (hevent : performEvent e s = .next t) : t.Inv := by
  rcases performEvent_cases hevent with rfl | ⟨hconstructed, raw, rfl⟩ | ⟨_, b, rfl⟩ | rfl | rfl
  · exact h
  · obtain ⟨hand, -⟩ := h hconstructed
    exact processed_inv raw hand
  · exact h
  · exact construction_inv s.cfg
  · exact nofun

/-- Settles O29: of what one event can do, only `process` writes anything the invariant speaks of, and construction
gives it anew. -/
theorem everyStepKeepsTheInvariant : Obligations.EveryStepKeepsTheInvariant := by
  intro s t h hstep
  rcases step_cases hstep with ⟨-, rfl⟩ | ⟨e, rest, -, hevent⟩
  · exact h
  · exact performEvent_inv (s := takeEvent s rest) h hevent

end Sys2Proof.Machine
end

section
/-! The counter form (spec/40_process.md R116): the run of a channel in the ring after one turn of it, and the
simulation. -/

namespace Sys2Proof.Machine

open Sys2Proof

/-! ## The leading run of a list -/

/-- The leading run of `xs ++ ys`, cut at the length of `xs`, is that of `xs`. -/
theorem min_length_takeWhile_append {α : Type} (p : α → Bool) (xs ys : List α) :
    min xs.length ((xs ++ ys).takeWhile p).length = (xs.takeWhile p).length := by
  induction xs with
  | nil => simp
  | cons x xs ih =>
    rw [List.cons_append, List.takeWhile_cons, List.takeWhile_cons]
    split
    · rw [List.length_cons, List.length_cons, List.length_cons, Nat.add_min_add_right, ih]
    · simp

/-- The leading run is the whole list exactly when every element is in it. -/
theorem takeWhile_length_beq_length {α : Type} (p : α → Bool) (xs : List α) :
    ((xs.takeWhile p).length == xs.length) = xs.all p := by
  induction xs with
  | nil => rfl
  | cons x xs ih =>
    rw [List.takeWhile_cons, List.all_cons]
    cases p x with
    | true => simpa using ih
    | false => rfl

/-! ## The run of a channel -/

/-- A channel is active in the whole ring exactly when its run is `N` (R116). -/
theorem counters_run_beq_n (s : State) (c : Channel) :
    (s.counters.run[c.val] == s.cfg.n) = (andAll s.window.toList)[c.val] := by
  rw [State.counters_run, ← andAll_oldestFirst, andAll_channel, ← oldestFirst_length,
    ← List.length_reverse (as := s.oldestFirst), takeWhile_length_beq_length, List.all_reverse]

/-- One more sample lengthens the run of an active channel up to `N` and ends that of an inactive one (R116). -/
theorem processed_counters_run (raw : Byte) (s : State) (c : Channel) :
    (processed raw s).counters.run[c.val] =
      nextRun s.cfg ((correctSample s.cfg raw)[c.val]) s.counters.run[c.val] := by
  obtain ⟨oldest, rest, hring⟩ := List.exists_cons_of_ne_nil (oldestFirst_ne_nil s)
  have hlength : rest.reverse.length + 1 = s.cfg.n := by
    rw [← oldestFirst_length, hring, List.length_reverse, List.length_cons]
  rw [State.counters_run, State.counters_run, processed_oldestFirst, hring, List.tail_cons, List.reverse_concat,
    List.reverse_cons, List.takeWhile_cons, nextRun, ← hlength]
  split
  · rw [List.length_cons, Nat.add_min_add_right, min_length_takeWhile_append]
  · rfl

/-- The window's counters after `process` are the counters' own `process` (R116). -/
theorem processed_counters (raw : Byte) (s : State) : (processed raw s).counters = s.counters.process raw := by
  have hrun (c : Channel) : (processed raw s).counters.run[c.val] = (s.counters.process raw).run[c.val] :=
    (processed_counters_run raw s c).trans (Counters.process_run s.counters raw c).symm
  have hdebounced : (processed raw s).debounced = (s.counters.process raw).debounced :=
    byte_eq_of_channels fun c => by
      rw [Counters.process_debounced, ← hrun, processed_debounced, ← counters_run_beq_n]; rfl
  refine Counters.eq_of_fields rfl hrun hdebounced ?changed rfl
  case changed => rw [State.counters_changed, processed_changed, Counters.process_changed, hdebounced]; rfl

theorem construction_counters (cfg : Config) : (State.construction cfg).counters = Counters.construction cfg := by
  refine Counters.eq_of_fields rfl (fun c => ?run) rfl rfl rfl
  case run =>
    rw [State.counters_run, construction_oldestFirst, List.reverse_replicate, List.takeWhile_replicate]
    simp [Counters.construction]

/-- Settles O37: one turn of the ring is one step of every channel's run, and the queries read registers that both forms
share. -/
theorem counterFormSimulatesTheWindow : Obligations.CounterFormSimulatesTheWindow := by
  refine ⟨construction_counters, fun i s => ?simulates⟩
  case simulates =>
    cases i with
    | process raw =>
      refine ⟨_, rfl, processed_counters raw s, fun _ _ c => ?_⟩
      rw [processed_debounced, ← counters_run_beq_n, processed_cfg]
    | pressed m =>
      obtain ⟨⟨hpressed, -⟩, -, -⟩ := queriesAnswerFromTheCommittedState s m
      exact ⟨_, hpressed, rfl, nofun⟩
    | released m =>
      obtain ⟨-, ⟨hreleased, -⟩, -⟩ := queriesAnswerFromTheCommittedState s m
      exact ⟨_, hreleased, rfl, nofun⟩
    | debouncedStateGet m =>
      obtain ⟨-, -, hlevel, -⟩ := queriesAnswerFromTheCommittedState s m
      exact ⟨_, hlevel, rfl, nofun⟩

end Sys2Proof.Machine
end

section
/-! Construction, reset, power and one step (spec/70_reset_and_hazards.md R180-R183, spec/60_exceptions.md R151-R154,
R163). -/

namespace Sys2Proof.Machine

open Sys2Proof

/-! ## Construction -/

theorem construction_registers (cfg : Config) : (State.construction cfg).registers =
    { cfg := cfg, window := List.replicate cfg.n 0x00, cursor := 0, debounced := 0x00, changed := 0x00,
      constructed := true } := by
  rw [State.registers, State.construction_window]; rfl

/-- Settles O20: the fields of the construction state, and those of the realisation's own configuration. -/
theorem constructionState : Obligations.ConstructionState :=
  ⟨fun cfg => ⟨construction_registers cfg, correctSample_idle cfg⟩, rfl, rfl, rfl⟩

theorem legalWindowSize_iff {n : Nat} : legalWindowSize n = true ↔ 1 ≤ n ∧ n ≤ 255 := decide_eq_true_iff

/-- Legal parameters construct (R151). -/
theorem construct_of_legal {n : Nat} (mask : Byte) (hpos : 1 ≤ n) (hle : n ≤ 255) :
    construct n mask = .ok (State.construction ⟨n, mask, hpos, hle⟩) := by
  rw [construct, dif_pos (legalWindowSize_iff.mpr ⟨hpos, hle⟩)]

/-- Any other window size is rejected for its one cause (R151, R152). -/
theorem construct_of_illegal {n : Nat} (mask : Byte) (h : ¬(1 ≤ n ∧ n ≤ 255)) :
    construct n mask = .error (windowSizeCause n) := by
  rw [construct, dif_neg (mt legalWindowSize_iff.mp h)]

/-- Settles O21: a window size is legal, or it is 0, or it is above 255. -/
theorem constructionChecksTheWindowSize : Obligations.ConstructionChecksTheWindowSize := by
  refine fun n mask => ⟨fun hpos hle => ⟨_, construct_of_legal mask hpos hle, rfl, rfl, rfl⟩, fun hzero => ?zero,
    fun hlarge => ?large, ?noChannelRange, rfl⟩
  case zero => rw [construct_of_illegal mask (by omega), windowSizeCause, if_pos hzero]
  case large => rw [construct_of_illegal mask (by omega), windowSizeCause, if_neg (by omega)]
  case noChannelRange =>
    by_cases hlegal : 1 ≤ n ∧ n ≤ 255
    · obtain ⟨hpos, hle⟩ := hlegal
      rw [construct_of_legal mask hpos hle]; nofun
    · rw [construct_of_illegal mask hlegal, windowSizeCause]
      split <;> nofun

/-! ## One step -/

/-- A step performs the oldest pending event. -/
theorem step_of_pending {s : State} {e : HostEvent} {rest : List HostEvent} (h : s.pending = e :: rest) :
    step s = performEvent e (takeEvent s rest) := by
  rw [step, h]

/-- Settles O26: the step takes the word, and on a constructed state `exec` runs what it decodes to. -/
theorem stepPerformsTheDecodedOperation : Obligations.StepPerformsTheDecodedOperation := by
  refine ⟨fun s word rest hconstructed hpending => ?word, fun s i hconstructed => ?fetched⟩
  case word =>
    have htaken : (takeEvent s rest).constructed = true := hconstructed
    rw [step_of_pending hpending, performEvent, whenConstructed_of_true htaken, takeEvent]
  case fetched =>
    rw [State.withFetchWord, tableWord_toNat]
    exact performEvent_operation i hconstructed

/-- Settles O27: an event list may be empty, and an idle edge changes nothing but the events still to come. -/
theorem withoutASampleTheStateHolds : Obligations.WithoutASampleTheStateHolds := by
  refine ⟨fun s hpending => ?noEvent, fun s pins rest hrst hvalid hpending => ?idleEdge⟩
  case noEvent => rw [step, hpending]
  case idleEdge => rw [step_of_pending hpending, performEvent_idleEdge hrst hvalid, takeEvent]

/-! ## Reset -/

/-- An edge with `rst` constructs, whatever the other pins (R79, R154, R181). -/
theorem performEvent_resetEdge {pins : PinInputs} (h : pins.rst = true) (s : State) :
    performEvent (.clockEdge pins) s = .next (reconstruct s) := by
  rw [performEvent, clockEdge, if_pos h]

/-- Settles O22: a reset edge reconstructs, and the registers reconstructed are a function of the constants, which
stay. -/
theorem resetWinsOverSample : Obligations.ResetWinsOverSample := by
  intro s pins rest hrst hpending
  refine ⟨reconstruct (takeEvent s rest), ?reset, rfl, rfl, rfl, fun again hagain => ?held⟩
  case reset => rw [step_of_pending hpending, performEvent_resetEdge hrst]
  case held => exact ⟨_, performAll_cons_of_next (performEvent_resetEdge hagain _) [], rfl⟩

/-! ## Before the first reset (R182) -/

/-- Before the first reset an event that asks for an operation stops, and any other but a reset leaves the state
unconstructed. -/
theorem performEvent_unconstructed {e : HostEvent} {s : State} (h : s.constructed = false)
    (hreset : isReset e = false) :
    (asksForOperation e = true ∧ performEvent e s = .fault .beforeReset) ∨
      (asksForOperation e = false ∧ ∃ t : State, performEvent e s = .next t ∧ t.constructed = false) := by
  cases e with
  | operation word => exact .inl ⟨rfl, whenConstructed_of_false h⟩
  | clockEdge pins =>
    have hrst : pins.rst = false := hreset
    cases hvalid : pins.sampleValid with
    | true => exact .inl ⟨by simp [asksForOperation, hrst, hvalid],
        by simp [performEvent, clockEdge, hrst, hvalid, whenConstructed_of_false h]⟩
    | false => exact .inr ⟨by simp [asksForOperation, hvalid], s, performEvent_idleEdge hrst hvalid s, h⟩
  | powerCycle => exact .inr ⟨rfl, losePower s, rfl, losePower_constructed s⟩

/-- Before the first reset a run stops if it holds an event that asks for an operation; otherwise it goes on, and the
state stays unconstructed. -/
theorem performAll_unconstructed {es : List HostEvent} {s : State} (h : s.constructed = false)
    (hreset : ∀ e ∈ es, isReset e = false) :
    ((∃ e ∈ es, asksForOperation e = true) ∧ performAll s es = .fault .beforeReset) ∨
      ((∀ e ∈ es, asksForOperation e = false) ∧ ∃ t : State, performAll s es = .next t ∧ t.constructed = false) := by
  induction es generalizing s with
  | nil => exact .inr ⟨nofun, _, performAll_nil s, h⟩
  | cons e es ih =>
    obtain ⟨he, hes⟩ := List.forall_mem_cons.mp hreset
    rw [List.exists_mem_cons_iff, List.forall_mem_cons]
    rcases performEvent_unconstructed h he with ⟨hasks, hstop⟩ | ⟨hidle, t, hnext, ht⟩
    · exact .inl ⟨.inl hasks, performAll_cons_of_fault hstop es⟩
    · rw [performAll_cons_of_next hnext]
      rcases ih ht hes with ⟨hasks, hstop⟩ | ⟨hidles, hrun⟩
      · exact .inl ⟨.inr hasks, hstop⟩
      · exact .inr ⟨⟨hidle, hidles⟩, hrun⟩

/-- Settles O24: a power cycle leaves the state unconstructed, and from there a run either holds an event that asks
for an operation and stops, or holds none and stays unconstructed. -/
theorem noOperationBeforeReset : Obligations.NoOperationBeforeReset := by
  refine ⟨fun s rest hpending => ⟨_, step_of_pending hpending, rfl, rfl, rfl, rfl⟩, fun s events h hreset => ?run⟩
  case run =>
    rcases performAll_unconstructed h hreset with ⟨⟨e, he, hasks⟩, hstop⟩ | ⟨hidle, t, hrun, ht⟩
    · refine ⟨fun t hrun => ?_, fun _ => hstop, fun hidle => ?_⟩
      · rw [hstop] at hrun; cases hrun
      · rw [hidle e he] at hasks; cases hasks
    · refine ⟨fun u hu => ?_, fun ⟨e, he, hasks⟩ => ?_, fun _ => ⟨t, hrun⟩⟩
      · rw [hrun] at hu; cases hu; exact ht
      · rw [hidle e he] at hasks; cases hasks

end Sys2Proof.Machine
end

section
/-! The assembler (spec/30_encoding.md R76, R77; log 12): a line is a name, a space and an immediate, and an
immediate is its digits in a base. -/

namespace Sys2Proof.Machine

open Sys2Proof

/-! ## Names -/

theorem ne_space_of_mem_spelling {opcode : Opcode} {c : Char} (h : c ∈ spelling opcode) : c ≠ ' ' := by
  rintro rfl
  revert h
  cases opcode <;> decide

/-- The names of the listing are told apart by their spelling (R76). -/
theorem opcodeNamed_eq_some_iff {name : List Char} {opcode : Opcode} :
    opcodeNamed name = some opcode ↔ name = spelling opcode := by
  constructor
  · intro h
    have hspelling := List.find?_some (p := fun opcode => spelling opcode == name) h
    exact (eq_of_beq hspelling).symm
  · rintro rfl
    cases opcode <;> rfl

/-! ## Lines -/

/-- A line with a space is read as a name and an immediate. -/
theorem assemble_of_name {name : List Char} (h : ∀ c ∈ name, c ≠ ' ') (digits : List Char) :
    assemble (name ++ ' ' :: digits) =
      (opcodeNamed name).bind fun opcode => (readImmediate digits).bind (assembleOperation opcode) := by
  have hname : ∀ c ∈ name, (c != ' ') = true := fun c hc => bne_iff_ne.mpr (h c hc)
  rw [assemble, List.takeWhile_append_of_pos hname, List.dropWhile_append_of_pos hname,
    List.takeWhile_cons_of_neg (by decide), List.dropWhile_cons_of_neg (by decide), List.append_nil]
  cases opcodeNamed name with
  | none => rfl
  | some opcode =>
    rw [Option.bind_some]
    cases hdigits : readImmediate digits <;> simp [hdigits]

/-- A line without a space is refused. -/
theorem assemble_of_no_space {line : List Char} (h : ' ' ∉ line) : assemble line = none := by
  have hdrop : line.dropWhile (· != ' ') = [] :=
    List.dropWhile_eq_nil_iff.mpr fun c hc => bne_iff_ne.mpr fun hspace => h (hspace ▸ hc)
  rw [assemble, hdrop]
  cases opcodeNamed (line.takeWhile (· != ' ')) <;> rfl

/-- An immediate above 255 is refused, and one up to 255 is the data field (R76). -/
theorem assembleOperation_eq_ite (opcode : Opcode) (imm : Nat) :
    assembleOperation opcode imm = if imm ≤ 255 then some (opcode.bits ++ BitVec.ofNat 8 imm) else none := by
  simp [assembleOperation, legalImmediate, encode]

theorem assemble_of_spelling (opcode : Opcode) (digits : List Char) :
    assemble (spelling opcode ++ ' ' :: digits) = (readImmediate digits).bind (assembleOperation opcode) := by
  rw [assemble_of_name fun _ => ne_space_of_mem_spelling, opcodeNamed_eq_some_iff.mpr rfl, Option.bind_some]

/-- What assembles is a listed name, a space and an immediate of at most 255 (R76, R77). -/
theorem assemble_eq_some_iff {line : List Char} {word : OpWord} : assemble line = some word ↔
    ∃ (opcode : Opcode) (digits : List Char) (imm : Nat), line = spelling opcode ++ ' ' :: digits ∧
      readImmediate digits = some imm ∧ imm ≤ 255 ∧ word = opcode.bits ++ BitVec.ofNat 8 imm := by
  constructor
  · intro h
    by_cases hspace : ' ' ∈ line
    · obtain ⟨name, digits, rfl, hname⟩ := List.eq_append_cons_of_mem hspace
      rw [assemble_of_name fun c hc hsp => hname (hsp ▸ hc)] at h
      obtain ⟨opcode, hopcode, h⟩ := Option.bind_eq_some_iff.mp h
      obtain ⟨imm, himm, h⟩ := Option.bind_eq_some_iff.mp h
      rw [assembleOperation_eq_ite] at h
      obtain ⟨hle, hword⟩ := Option.ite_none_right_eq_some.mp h
      rw [opcodeNamed_eq_some_iff.mp hopcode]
      exact ⟨opcode, digits, imm, rfl, himm, hle, (Option.some.inj hword).symm⟩
    · rw [assemble_of_no_space hspace] at h; cases h
  · rintro ⟨opcode, digits, imm, rfl, himm, hle, rfl⟩
    rw [assemble_of_spelling, himm, Option.bind_some, assembleOperation_eq_ite, if_pos hle]

/-! ## Digits -/

theorem char_toLower_toNat (c : Char) :
    c.toLower.toNat = if 65 ≤ c.toNat ∧ c.toNat ≤ 90 then c.toNat + 32 else c.toNat := by
  have hle (a b : UInt32) : a ≤ b ↔ a.toNat ≤ b.toNat := UInt32.le_iff_toNat_le
  have hupper : (c.val ≥ 'A'.val ∧ c.val ≤ 'Z'.val) ↔ 65 ≤ c.toNat ∧ c.toNat ≤ 90 := by
    rw [ge_iff_le, hle, hle]; rfl
  unfold Char.toLower
  split
  case isTrue h =>
    obtain ⟨hlow, hhigh⟩ := hupper.mp h
    rw [if_pos ⟨hlow, hhigh⟩]
    have hsum : (c.val + ('a'.val - 'A'.val)).toNat = (c.val.toNat + 32) % 2 ^ 32 := UInt32.toNat_add ..
    exact hsum.trans (Nat.mod_eq_of_lt (by change c.toNat + 32 < _; omega))
  case isFalse h => rw [if_neg (mt hupper.mpr h)]

theorem digitChar_toNat {d : Nat} (h : d < 16) :
    (Nat.digitChar d).toNat = if d < 10 then d + 48 else d + 87 := by
  revert d; decide

/-- The digits by their character codes: `0`-`9`, `A`-`F` and `a`-`f`. -/
theorem digitValue_eq_some_iff_toNat {c : Char} {d : Nat} : digitValue c = some d ↔
    (d < 10 ∧ c.toNat = d + 48) ∨ (10 ≤ d ∧ d < 16 ∧ (c.toNat = d + 55 ∨ c.toNat = d + 87)) := by
  unfold digitValue
  split_ifs <;> simp only [Option.some.injEq, false_iff] <;> omega

/-- The digits of base 16 and their values, letters in either case. -/
theorem digitValue_eq_some_iff {c : Char} {d : Nat} :
    digitValue c = some d ↔ d < 16 ∧ c.toLower = Nat.digitChar d := by
  rw [digitValue_eq_some_iff_toNat, ← Char.toNat_inj, char_toLower_toNat]
  by_cases hd : d < 16
  · rw [digitChar_toNat hd]
    split_ifs <;> omega
  · omega

theorem readDigits_cons_eq_some_iff {base value imm : Nat} {c : Char} {cs : List Char} :
    readDigits base value (c :: cs) = some imm ↔
      ∃ d, digitValue c = some d ∧ d < base ∧ readDigits base (value * base + d) cs = some imm := by
  rw [readDigits]
  cases digitValue c with
  | none => simp
  | some d => simp

/-- Digits are read one after another, each in the base, onto the value before them. -/
theorem readDigits_eq_some_iff {base : Nat} (hbase : base ≤ 16) {digits : List Char} {value imm : Nat} :
    readDigits base value digits = some imm ↔
      ∃ values : List Nat, (∀ d ∈ values, d < base) ∧ digits.map Char.toLower = values.map Nat.digitChar ∧
        imm = values.foldl (fun v d => v * base + d) value := by
  induction digits generalizing value with
  | nil => simp [readDigits, eq_comm]
  | cons c cs ih =>
    rw [readDigits_cons_eq_some_iff]
    constructor
    · rintro ⟨d, hdigit, hd, hrest⟩
      obtain ⟨values, hvalues, hmap, himm⟩ := ih.mp hrest
      obtain ⟨-, hlower⟩ := digitValue_eq_some_iff.mp hdigit
      exact ⟨d :: values, List.forall_mem_cons.mpr ⟨hd, hvalues⟩,
        by rw [List.map_cons, hlower, hmap, List.map_cons], himm⟩
    · rintro ⟨values, hvalues, hmap, himm⟩
      cases values with
      | nil => cases hmap
      | cons d ds =>
        obtain ⟨hd, hds⟩ := List.forall_mem_cons.mp hvalues
        obtain ⟨hlower, hmap⟩ := List.cons.inj hmap
        exact ⟨d, digitValue_eq_some_iff.mpr ⟨by omega, hlower⟩, hd, ih.mpr ⟨ds, hds, hmap, himm⟩⟩

/-- The value built digit by digit is that of the digits in the base, the first digit the most significant. -/
theorem foldl_digits_eq_ofDigits (base : Nat) (values : List Nat) :
    values.foldl (fun v d => v * base + d) 0 = Nat.ofDigits base values.reverse := by
  rw [Nat.ofDigits_eq_foldr, List.foldr_reverse]
  simp only [Nat.cast_id, Nat.add_comm, Nat.mul_comm]

/-- A number is one or more digits of its base (R76). -/
theorem readNumber_eq_some_iff {base : Nat} (hbase : base ≤ 16) {digits : List Char} {imm : Nat} :
    readNumber base digits = some imm ↔
      ∃ values : List Nat, values ≠ [] ∧ (∀ d ∈ values, d < base) ∧
        digits.map Char.toLower = values.map Nat.digitChar ∧ imm = Nat.ofDigits base values.reverse := by
  have hempty {values : List Nat} (h : digits.map Char.toLower = values.map Nat.digitChar) :
      digits = [] ↔ values = [] := by
    rw [← List.map_eq_nil_iff (f := Char.toLower), h, List.map_eq_nil_iff]
  simp only [readNumber, List.isEmpty_iff, Option.ite_none_left_eq_some, readDigits_eq_some_iff hbase,
    foldl_digits_eq_ofDigits]
  constructor
  · rintro ⟨hsome, values, hvalues, hmap, himm⟩
    exact ⟨values, mt (hempty hmap).mpr hsome, hvalues, hmap, himm⟩
  · rintro ⟨values, hsome, hvalues, hmap, himm⟩
    exact ⟨mt (hempty hmap).mp hsome, values, hvalues, hmap, himm⟩

/-! ## Immediates -/

/-- Every base has its digits among those of base 16. -/
theorem base_le_of_mem {lead : List Char} {base : Nat}
    (h : (lead, base) ∈ [(['0', 'x'], 16), (['0', 'b'], 2), ([], 10)]) : base ≤ 16 := by
  simp only [List.mem_cons, Prod.mk.injEq, List.not_mem_nil, or_false] at h
  omega

/-- An immediate is a lead and a number in the base of that lead (R76). -/
theorem readImmediate_eq_some_iff {chars : List Char} {imm : Nat} : readImmediate chars = some imm ↔
    ∃ (lead digits : List Char) (base : Nat), (lead, base) ∈ [(['0', 'x'], 16), (['0', 'b'], 2), ([], 10)] ∧
      chars = lead ++ digits ∧ readNumber base digits = some imm := by
  constructor
  · intro h
    unfold readImmediate at h
    split at h
    · exact ⟨['0', 'x'], _, 16, by simp, rfl, h⟩
    · exact ⟨['0', 'b'], _, 2, by simp, rfl, h⟩
    · exact ⟨[], _, 10, by simp, rfl, h⟩
  · rintro ⟨lead, digits, base, hbase, rfl, h⟩
    simp only [List.mem_cons, Prod.mk.injEq, List.not_mem_nil, or_false] at hbase
    rcases hbase with ⟨rfl, rfl⟩ | ⟨rfl, rfl⟩ | ⟨rfl, rfl⟩
    · exact h
    · exact h
    · rw [List.nil_append]
      unfold readImmediate
      split
      · cases h
      · cases h
      · exact h

/-! ## Source lines -/

/-- A digit as the listings write it has its value. -/
theorem digitValue_hexDigit {n : Nat} (h : n < 16) : digitValue (hexDigit n) = some n := by
  revert n; decide

/-- The two digits of a byte, read in base 16, are the byte. -/
theorem readImmediate_hexByte (b : Byte) : readImmediate (hexByte b) = some b.toNat := by
  have hlt : b.toNat < 256 := b.isLt
  have hhigh := digitValue_hexDigit (n := b.toNat / 16) (by omega)
  have hlow := digitValue_hexDigit (n := b.toNat % 16) (by omega)
  have hdigits : readDigits 16 0 [hexDigit (b.toNat / 16), hexDigit (b.toNat % 16)] = some b.toNat :=
    readDigits_cons_eq_some_iff.mpr ⟨_, hhigh, by omega, readDigits_cons_eq_some_iff.mpr
      ⟨_, hlow, by omega, by rw [readDigits, Nat.zero_mul, Nat.zero_add, Nat.div_add_mod']⟩⟩
  exact hdigits

/-- Settles O41: a listed name is found and an unlisted one is not, a byte's two digits read as the byte, and the
immediate decides the rest. -/
theorem assemblerFollowsTheListing : Obligations.AssemblerFollowsTheListing := by
  refine ⟨fun i => ?sourceLine, fun opcode digits imm himm => ?immediate, fun name digits hname hunlisted => ?unlisted⟩
  case sourceLine =>
    have hbyte : i.operand.toNat ≤ 255 := Nat.le_of_lt_succ i.operand.isLt
    rw [sourceLine, assemble_of_spelling, readImmediate_hexByte, Option.bind_some, assembleOperation_eq_ite,
      if_pos hbyte, BitVec.ofNat_toNat, BitVec.setWidth_eq, encode]
  case immediate => rw [assemble_of_spelling, himm, Option.bind_some, assembleOperation_eq_ite]
  case unlisted =>
    have hnone : opcodeNamed name = none :=
      Option.eq_none_iff_forall_ne_some.mpr fun opcode h => hunlisted opcode (opcodeNamed_eq_some_iff.mp h)
    rw [assemble_of_name hname, hnone, Option.bind_none]

/-- Settles O42: the lines that assemble, and the immediates as a lead and a number in its base. -/
theorem assemblerAcceptsOnlyTheSyntax : Obligations.AssemblerAcceptsOnlyTheSyntax := by
  refine ⟨fun _ _ => assemble_eq_some_iff, fun chars imm => readImmediate_eq_some_iff.trans ⟨?digits, ?number⟩⟩
  case digits =>
    rintro ⟨lead, digits, base, hbase, hchars, hnumber⟩
    obtain ⟨values, hvalues⟩ := (readNumber_eq_some_iff (base_le_of_mem hbase)).mp hnumber
    obtain ⟨hsome, hlt, hmap, himm⟩ := hvalues
    exact ⟨lead, digits, base, values, hbase, hchars, hsome, hlt, hmap, himm⟩
  case number =>
    rintro ⟨lead, digits, base, values, hbase, hchars, hnumber⟩
    exact ⟨lead, digits, base, hbase, hchars, (readNumber_eq_some_iff (base_le_of_mem hbase)).mpr ⟨values, hnumber⟩⟩

end Sys2Proof.Machine
end
